-- ==== Sys2Proof/Word.lean ====
section
/-! DEFINITION. The word types of the model: bytes, register words and the 64-bit words of the pommel core. -/

namespace Sys2Proof

/-- One byte. -/
abbrev Byte := BitVec 8

/-- One 32-bit register word (R401). -/
abbrev Reg32 := BitVec 32

/-- One 64-bit scalar register or instruction word (R20, R188). -/
abbrev Word64 := BitVec 64

end Sys2Proof
end

