-- ==== Sys2Proof/Syntax.lean ====
section
/-! DEFINITION. The commands of the block: one constructor of `Instr` for each row of the table of steps, with the
operands the row acts on. A stamp `t` is the counter value at which a happening is stamped (R59, R61); a happening
whose stamp the rules compute from the state carries none. -/

namespace Sys2Proof

/-! ## Messages (R313, R318, R325 to R338) -/

/-- The header of a message on a host session (R313): the delivery stamp, the port it arrived on, CHAN, SEQ, ACK where
ACKV is set, the Ethernet, IP and UDP source it came from (R310), DST_MOD and RETX. VER, CLASS and PLEN are those of the
command; SRC_MOD is 0xFFFF. -/
structure Hdr where
  t : Nat
  port : Fin 8
  chan : Reg32
  seq : Reg32
  ack : Option Reg32
  src : Nat
  dst : BitVec 16
  retx : Bool
  deriving DecidableEq, Repr

/-- The header of a message on a module channel (R314): as `Hdr`, with SRC_MOD in place of the network source. -/
structure MHdr where
  t : Nat
  port : Fin 8
  chan : Reg32
  srcMod : BitVec 16
  seq : Reg32
  ack : Option Reg32
  dst : BitVec 16
  retx : Bool
  deriving DecidableEq, Repr

/-- One access of REG_READ or REG_WRITE (R331); VALUE is zero in a read. -/
structure RegAccess where
  addr : Word64
  value : Reg32
  deriving DecidableEq, Repr

/-- The instance name of R282, as every RED_ payload begins with it (R336). -/
structure InstName where
  job : BitVec 16
  entry : BitVec 12
  k : BitVec 16
  step : Word64
  deriving DecidableEq, Repr

/-- RED_START after its name (R336); `dec` is 1 IN, 2 OUT LATE, 3 OUT ERR; the map lists the ranks RLO on. -/
structure RedStart where
  name : InstName
  depth : Byte
  dec : Byte
  rlo : BitVec 16
  rhi : BitVec 16
  ndata : Reg32
  dlNs : Reg32
  dlStitch : Word64
  inmap : List Bool
  deriving DecidableEq, Repr

/-- RED_DATA after its name (R336): elements as stored bytes, least significant byte first. -/
structure RedData where
  name : InstName
  offset : Reg32
  count : BitVec 16
  shard : BitVec 16
  elems : List Byte
  deriving DecidableEq, Repr

/-- RED_FINAL after its name (R336). -/
structure RedFinal where
  name : InstName
  nin : BitVec 16
  vote : Byte
  inmap : List Bool
  deriving DecidableEq, Repr

/-- HELLO (R318); `rsv` are its zero fields read as one number. -/
structure Hello where
  slot : Byte
  cls : Byte
  job : BitVec 16
  maxp : BitVec 16
  resume : Reg32
  nh : List Byte
  rsv : Nat
  deriving DecidableEq, Repr

/-- LEND_MAP and LEND_OPEN (R337). -/
structure LendReq where
  lender : BitVec 16
  count : Reg32
  laddr : Word64
  baddr : Word64
  deriving DecidableEq, Repr

/-- The payload of a sequenced message to this module (R325). -/
inductive Msg where
  | close
  | cmd (flags : Byte) (descs : List (List Byte))
  | abort (tag : Reg32)
  | regRead (accs : List RegAccess)
  | regWrite (accs : List RegAccess)
  | dataWrite (addr : Word64) (len : Reg32) (data : List Byte)
  | dataRead (addr : Word64) (len : Reg32)
  | eventSub (minSev : Byte) (flags : Byte)
  | libBegin (addr : Word64) (count : Reg32) (hint : BitVec 16)
  | libCommit (addr : Word64)
  | libAbort (addr : Word64)
  | lendMap (r : LendReq)
  | lendEnd (borrower : BitVec 16)
  | redStart (r : RedStart)
  | redData (r : RedData)
  | redFinal (r : RedFinal)
  | redFail (n : InstName)
  | lendOpen (r : LendReq)
  | lendAccept (status : Byte)
  | lendRead (laddr : Word64) (len : Reg32) (tag : Reg32)
  | lendData (tag : Reg32) (status : Byte) (data : List Byte)
  | lendNotice
  | lendClose
  deriving DecidableEq, Repr

/-- IEEE 1588 messages the servo uses (R309): SEQUENCE_ID with the time or correction each carries, in nanoseconds. -/
inductive PtpMsg where
  | announce
  | sync (id : Nat) (twoStep : Bool) (origin : Nat) (correction : Int)
  | followUp (id : Nat) (origin : Nat) (correction : Int)
  | delayResp (id : Nat) (receive : Nat) (correction : Int)
  deriving DecidableEq, Repr

/-- A message with the domain it is of (R59). -/
structure PtpFrame where
  domain : Byte
  msg : PtpMsg
  deriving DecidableEq, Repr

/-- The body of a DATA_WRITE: LEN, and the bytes that follow (R332). -/
structure WriteBody where
  len : Reg32
  bytes : List Byte
  deriving DecidableEq, Repr

/-- A pseudo-channel of a stack, and the accesses or rows of it that showed correctable errors, each with its stamp
(R356). -/
structure PchSeen where
  pch : Fin 64
  seen : List (Nat × Nat)
  deriving DecidableEq, Repr

/-- A device of a rank, and the bursts in which it gave errors, each named by its 32-byte unit, with its stamp (R357). -/
structure DeviceSeen where
  device : Fin 20
  seen : List (Nat × Nat)
  deriving DecidableEq, Repr

/-- What training finds on the DDR channels: bit d of `fitted` where channel d has a module, bit d of `work` where it works, bit
d of `small` where it holds 64 GiB, two bits of `rates` for the rate it supports, in steps of 800 MT/s from 6400 (R239). -/
structure Fitted where
  fitted : BitVec 16
  work : BitVec 16
  small : BitVec 16
  rates : BitVec 32
  deriving DecidableEq, Repr

/-- Which retransmission timer runs out (R323): a host session, the reduction channel to a module, or a lending
association, as borrower or lender. -/
inductive ChanRef where
  | session (sid : Nat)
  | reduction (peer : Nat)
  | lending (index : Fin 8)
  | lent (index : Nat)
  deriving DecidableEq, Repr

/-- Where a read of scrub or an SRAM correction stands (R345, R358). -/
inductive SramAt where
  | cluster (x : Fin 144)
  | hub
  deriving DecidableEq, Repr

/-- Where a page's home or copy comes to lie: the hub cache, a stack of T1, or T2 (R209, R218). -/
inductive PageAt where
  | t0
  | t1 (stack : Fin 8)
  | t2
  deriving DecidableEq, Repr

/-- What a scrub read visits (R358). -/
inductive ScrubAt where
  | device (unit : Nat)
  | tileStore (x : Fin 144) (word : Nat)
  | outputStore (x : Fin 144) (word : Nat)
  | vectorRegs (x : Fin 144) (word : Nat)
  | hubCache (word : Nat)
  deriving DecidableEq, Repr

/-- What a scrub read finds (R358). -/
inductive ScrubFound where
  | clean
  | corrected (writtenSince : Bool)
  | uncorrectable
  deriving DecidableEq, Repr

/-- One monitor measurement (R437, R438): electrical values in the units of PWR_INPUT, PWR_POWER and PWR_RAIL,
temperatures in degrees, flow in units of 10 mL/min, and how long the inlet and flow trip conditions have lasted. -/
structure Measure where
  volt : BitVec 16
  curr : BitVec 16
  watts : BitVec 16
  rails : List (BitVec 16)
  junction : Byte
  inlet : Byte
  outlet : Byte
  board : Byte
  flow : BitVec 16
  inletHotMs : Nat
  flowLowMs : Nat
  joules : Nat
  deriving DecidableEq, Repr

/-- Where a pommel instruction issues: the stamp, the cluster and the context (R183). -/
structure At where
  t : Nat
  x : Fin 144
  c : Fin 3
  deriving DecidableEq, Repr

/-- Form R of R188 after the opcode. -/
structure FormR where
  d : Fin 32
  a : Fin 32
  b : Fin 32
  rsv : BitVec 41
  deriving DecidableEq, Repr

/-- Form I of R188 after the opcode. -/
structure FormI where
  d : Fin 32
  a : Fin 32
  imm : BitVec 46
  deriving DecidableEq, Repr

/-- Form J of R188 after the opcode. -/
structure FormJ where
  rsv : BitVec 5
  a : Fin 32
  b : Fin 32
  off : BitVec 41
  deriving DecidableEq, Repr

/-- MXA in form X (R190). -/
structure FormMxa where
  w : Fin 32
  a : Fin 32
  b : Fin 32
  spill : Fin 32
  mask : Fin 32
  prod : Fin 16
  rsv : BitVec 27
  deriving DecidableEq, Repr

/-- LCH in form X (R191). -/
structure FormLch where
  w : Fin 32
  a : Fin 32
  b : Fin 32
  va : Fin 32
  vb : Fin 32
  k0 : Fin 32
  k1 : Fin 32
  sd : Fin 32
  x : Fin 32
  rsv : BitVec 11
  deriving DecidableEq, Repr

/-- CMB in form X (R192); `b` and `rsv` are reserved. -/
structure FormCmb where
  w : Fin 32
  a : Fin 32
  b : Fin 32
  spill : Fin 32
  mask : Fin 32
  rsv : BitVec 31
  deriving DecidableEq, Repr

/-- The commands, one for each row of the table. -/
inductive Instr where
  | stitchBoundary (slip : Nat)
  | adminReserveBegin
  | cmdLate
  | gridOriginReached
  | ptpMessage (t : Nat) (port : Fin 8) (m : PtpFrame)
  | ppsInPulse (t : Nat)
  | todFrame (t : Nat) (frame : List Byte)
  | evtSequence
  | cmd (h : Hdr) (flags : Byte) (descs : List (List Byte))
  | abort (h : Hdr) (tag : Reg32)
  | cmdBegin (p : At)
  | commandComplete (t : Nat) (id : Nat) (measured : Reg32)
  | releaseGatePass (x : Fin 144)
  | li (p : At) (f : FormI)
  | add (p : At) (f : FormR)
  | addi (p : At) (f : FormI)
  | sub (p : At) (f : FormR)
  | mul (p : At) (f : FormR)
  | and (p : At) (f : FormR)
  | or (p : At) (f : FormR)
  | xor (p : At) (f : FormR)
  | shl (p : At) (f : FormR)
  | shr (p : At) (f : FormR)
  | sar (p : At) (f : FormR)
  | ldt (p : At) (f : FormI)
  | stt (p : At) (f : FormI)
  | ldd (p : At) (f : FormI)
  | std (p : At) (f : FormI)
  | beq (p : At) (f : FormJ)
  | bne (p : At) (f : FormJ)
  | blt (p : At) (f : FormJ)
  | bltu (p : At) (f : FormJ)
  | jmp (p : At) (f : FormJ)
  | setvl (p : At) (f : FormR)
  | mxa (p : At) (f : FormMxa)
  | arrayOpStream (t : Nat) (x : Fin 144) (cycles : Nat) (fence : Nat)
  | tileEmit (t : Nat) (x : Fin 144)
  | lch (p : At) (f : FormLch)
  | chainPass (t : Nat) (x : Fin 144)
  | cmb (p : At) (f : FormCmb)
  | movin (p : At) (f : FormR)
  | movout (p : At) (f : FormR)
  | pfset (p : At) (f : FormI)
  | prefetchTileArrive (t : Nat) (x : Fin 144) (pf : Fin 4)
  | pfwait (p : At) (f : FormI)
  | pfrel (p : At) (f : FormI)
  | bwait (p : At) (f : FormR)
  | buckleWaitSatisfied (p : At)
  | bsig (p : At) (f : FormR)
  | fence (p : At) (f : FormR)
  | endCmd (p : At) (f : FormR)
  | triggerQueuedStart (t : Nat) (g : Fin 16) (entry : BitVec 12)
  | redStart (h : MHdr) (r : RedStart)
  | redData (h : MHdr) (r : RedData)
  | redFinal (h : MHdr) (r : RedFinal)
  | redFail (h : MHdr) (n : InstName)
  | operandTimeout (n : InstName) (level : Nat)
  | instanceFailTimeout (n : InstName)
  | voteTimeout (slot : Fin 16) (level : Nat)
  | grtVerdictLost (slot : Fin 16)
  | stepVoting (t : Nat) (slot : Fin 16)
  | stepRetired (t : Nat) (slot : Fin 16)
  | trnClose (h : Hdr) (slot : Fin 16) (step : Reg32)
  | trnSlotEnable (h : Hdr) (slot : Fin 16) (job : BitVec 16)
  | trnSlotDisable (h : Hdr) (slot : Fin 16) (job : BitVec 16)
  | resume (h : Hdr) (slot : Fin 16)
  | trnScaleWrite (h : Hdr) (slot : Fin 16) (v : Reg32)
  | grtGroupEnable (h : Hdr) (g : Fin 16) (v : Reg32)
  | grtGrpVote (h : Hdr) (g : Fin 16) (v : Reg32)
  | pmcBklCountWrite (h : Hdr) (n : BitVec 12) (v : Reg32)
  | nop (h : Hdr)
  | map (h : Hdr)
  | unmap (h : Hdr)
  | hint (h : Hdr)
  | move (h : Hdr)
  | query (h : Hdr)
  | migrationSwitch (t : Nat) (page : Nat) (place : PageAt)
  | pageArrival (t : Nat) (page : Nat) (place : PageAt)
  | scheduleDeadline (slot : Fin 16) (entry : Nat)
  | ftlRelocation (t : Nat) (block : BitVec 21) (failed : Bool)
  | retentionScan (t : Nat) (block : BitVec 21) (retry : Bool) (lastLevel : Bool)
  | ftlCmdRelocate (h : Hdr) (block : BitVec 21)
  | ftlCmdRetentionScan (h : Hdr) (block : BitVec 21)
  | hello (t : Nat) (port : Fin 8) (src : Nat) (p : Hello)
  | proof (h : Hdr) (p icv : List Byte)
  | proofReservationExpire (sid : Nat)
  | slotLockExpire (slot : Fin 8)
  | close (h : Hdr)
  | sessionIdleTimeout (sid : Nat)
  | lingerEnd (sid : Nat)
  | edgCloseWrite (h : Hdr) (sid : BitVec 24)
  | ack (h : Hdr) (srcMod : BitVec 16)
  | retxTimer (chan : ChanRef) (seq : Reg32)
  | regRead (h : Hdr) (accs : List RegAccess)
  | regWrite (h : Hdr) (accs : List RegAccess)
  | sthPeriodWrite (h : Hdr) (v : Reg32)
  | sthOriginWrite (h : Hdr) (v : Reg32)
  | pgCtrlWrite (h : Hdr) (addr : Reg32) (en : Bool) (drain : Bool)
  | pgAbort (h : Hdr) (addr : Reg32) (en : Bool) (drain : Bool)
  | pgModeWrite (h : Hdr) (addr : Reg32) (v : Reg32)
  | drnCntClear (h : Hdr) (x : Fin 144) (v : Reg32)
  | lchCntClear (h : Hdr) (x : Fin 144) (v : Reg32)
  | mxaDebugWrite (h : Hdr) (x : Fin 144) (v : Reg32)
  | sprSubst (h : Hdr) (logical : Byte) (tree : Fin 4) (index : BitVec 6)
  | peerReload (h : Hdr) (count : BitVec 16)
  | retrain (h : Hdr) (port : Fin 8)
  | dataWrite (h : Hdr) (addr : Word64) (data : WriteBody)
  | dataRead (h : Hdr) (addr : Word64) (len : Reg32)
  | eventSub (h : Hdr) (minSev : Byte) (flags : Byte)
  | libBegin (h : Hdr) (addr : Word64) (count : Reg32) (hint : BitVec 16)
  | libCommit (h : Hdr) (addr : Word64)
  | libAbort (h : Hdr) (addr : Word64)
  | lendMap (h : Hdr) (r : LendReq)
  | lendOpen (h : MHdr) (r : LendReq)
  | lendAccept (h : MHdr) (status : Byte)
  | lendRead (h : MHdr) (laddr : Word64) (len : Reg32) (tag : Reg32)
  | lendData (h : MHdr) (tag : Reg32) (status : Byte) (data : List Byte)
  | lendEnd (h : Hdr) (borrower : BitVec 16)
  | lendNotice (h : MHdr)
  | lendClose (h : MHdr)
  | lendNoticeTimeout (index : Nat)
  | sbgLendLost (index : Fin 8)
  | attestReq (t : Nat) (port : Fin 8) (src : Nat) (nonce : List Byte)
  | arpRequest (t : Nat) (port : Fin 8) (src : Nat) (target : Reg32)
  | neighbourSolicitation (t : Nat) (port : Fin 8) (src : Nat) (target : BitVec 128)
  | echoRequest (t : Nat) (port : Fin 8) (src : Nat) (v6 : Bool) (data : List Byte)
  | mkaFrame (t : Nat) (port : Fin 8) (secures : Bool)
  | edgMacsecDown (t : Nat) (port : Fin 8)
  | edgLinkUp (t : Nat) (port : Fin 8) (working : BitVec 4) (partner : BitVec 4)
  | edgLinkDown (t : Nat) (port : Fin 8) (failed : BitVec 4)
  | clusterFault (t : Nat) (x : Fin 144) (code : Byte)
  | sramCorrect (t : Nat) (where_ : SramAt)
  | hbmRowRepair (t : Nat) (stack : Fin 8) (pch : PchSeen)
  | hbmPchSpare (t : Nat) (stack : Fin 8) (pch : PchSeen)
  | ddrErase (t : Nat) (channel : Fin 16) (rank : Fin 2) (device : DeviceSeen)
  | sprMemUe (t : Nat) (unit : Nat) (source : BitVec 12)
  | girthLaneFault (t : Nat) (port : Fin 8)
  | bridgeAdderFault (t : Nat) (bridge : Fin 2)
  | phaseShed (t : Nat) (rail : Fin 5)
  | pllLoss (t : Nat)
  | firmwareWatchdog (t : Nat) (cacheIntact : Bool)
  | fwRestartEnd (t : Nat)
  | hubLogicFault (t : Nat)
  | scrubRead (t : Nat) (place : ScrubAt) (found : ScrubFound)
  | ckpArm (h : Hdr) (slot : Fin 16)
  | ckpCancel (h : Hdr)
  | ckpFirstWrite (t : Nat) (write : Nat)
  | ckpRelease (h : Hdr) (hi : Reg32)
  | ckpDone (h : Hdr)
  | secResetGo (h : Hdr)
  | resetBegin
  | sidebandReset (t : Nat)
  | resetRelease
  | firmwareBoot (t : Nat) (hbmStacks : BitVec 8) (channels : Fitted) (keyStoreOk : Bool)
  | update (h : Hdr)
  | commitSvn (h : Hdr)
  | secKsGo (h : Hdr)
  | senseMate (t : Nat) (pwrEn : Bool) (volt : BitVec 16) (restored : Bool)
  | sensePart (t : Nat)
  | pwrEnFall (t : Nat)
  | inputOutOfRange (t : Nat)
  | railUp (t : Nat)
  | railTimeout (t : Nat)
  | monitorUpdate (t : Nat) (m : Measure)
  | leakDetected (t : Nat)
  | cageOvercurrent (t : Nat) (port : Fin 8)
  | pwrReqOn (h : Hdr)
  | treesReady (t : Nat)
  | pwrReqIdle (h : Hdr)
  | pwrReqOff (h : Hdr)
  | writeReachesTier (t : Nat) (write : Nat)
  | todFrameTimeout
  | frameDiscard (t : Nat) (port : Fin 8) (macsec : Bool)
  | messageDrop (t : Nat) (port : Fin 8)
  | cageModuleInsertion (t : Nat) (port : Fin 8) (identity : List Byte)
  | bootUpdateEnd (t : Nat) (flashOk : Bool)
  | keyStoreStaged (t : Nat)
  deriving DecidableEq, Repr

end Sys2Proof
end

