-- ==== Sys2Proof/Decode.lean ====
section
/-! DEFINITION. Commands as words of the table. The table gives no row any bits: every row is a happening or a message
(R322) or an instruction word of R188 with its place (R183), and none of these is one word of the table. -/

namespace Sys2Proof

/-- The command that a word spells by the table's bits: none, since no row has bits. -/
def decodeTableWord (_nbits _w : Nat) : Option Instr := none

end Sys2Proof
end

