-- ==== Sys2Proof/Config.lean ====
section
/-! DEFINITION. The free values: what the spec leaves to the implementation, to chance or to another standard, as
constants with no body. `n` counts the free values drawn (State.free). -/

namespace Sys2Proof.Config

/-- The module nonce of the n-th challenge (R319); R319 gives no rule for it. Log entry 8. -/
opaque nonce : Nat → List Byte

/-- Whether the n-th placement the spec leaves open goes to T2 rather than T1 (R33, R444). Log entry 9. -/
opaque inT2 : Nat → Bool

/-- The cycles that a command dispatched but not completed is reported to have used (R33, R52, R327). Log entry 13. -/
opaque cycles : Nat → Nat

/-- The nanoseconds that the work of a page's aborted commands takes to stop (R56 bounds them by 2000). Log entry 55. -/
opaque abortNs : (page now : Nat) → Nat

/-- The magnitude, in parts per 10^9, of a slew for an offset (R60 bounds it by 200 000). Log entry 10. -/
opaque slewPpb : Int → Nat

/-- The unique device secret in fuses (R387). Log entry 5. -/
opaque uds : List Byte

/-- The four key hashes in fuses (R379). Log entry 5. -/
opaque keyHash : Nat → List Byte

/-- The version word of the boot ROM (R381). Log entry 5. -/
opaque romVersion : List Byte

/-- IK's own certificate, kept in the boot partition (R388). Log entry 11. -/
opaque ikCert : List Byte

/-- What R388 leaves open of the certificate that IK signs for AK, in DER: its number, its issuer, the start of its validity,
the type of the string that the serial number is in the subject, the mark of the extension with what stands before M0 in it,
and the values of k that its signature tries. Log entry 11. -/
opaque certNumber : Nat
opaque certIssuer : List Byte
opaque certFrom : List Byte
opaque certString : Byte
opaque certExtHead : List Byte
opaque certExtPrefix : List Byte
opaque certK : (digest : List Byte) → (attempt : Nat) → Nat

/-- Whole scrub passes over the HBM, and over the DDR, by a time since reset (R358 gives only the slowest pace). Log entry 23. -/
opaque hbmPasses : Nat → Nat
opaque ddrPasses : Nat → Nat

/-- Codewords corrected, and not corrected, on a port by a time since reset: what the line does is no input of the block
(R342). Log entry 53. -/
opaque fecCorrected : (port time : Nat) → Nat
opaque fecUncorrected : (port time : Nat) → Nat

/-- Which of the stacks that may hold a page is given it at a time, and which channel holds a 32-byte unit of T2; no rule
gives either. Log entry 23. -/
opaque stackOf : (page now : Nat) → Nat
opaque channelOf : Nat → Nat

/-- The unit that a word of the hub cache holds. Log entry 23. -/
opaque cacheUnit : Nat → Nat

end Sys2Proof.Config
end

