-- ==== Sys2Proof/Machine/Bits.lean ====
section
/-! DEFINITION. Bit fields, byte order, saturation, rounding of rationals to integers and sparse maps: the helpers
every unit shares. All recursion is structural. -/

namespace Sys2Proof.Machine

/-- Bits [lo + n - 1 : lo] of a word read as a number (R8). -/
def bits (w lo n : Nat) : Nat := w / 2 ^ lo % 2 ^ n

/-- One bit of a word. -/
def bit (w i : Nat) : Bool := bits w i 1 == 1

/-- `w` with bits [lo + n - 1 : lo] replaced by `v`. -/
def setBits (w lo n v : Nat) : Nat :=
  w - bits w lo n * 2 ^ lo + (v % 2 ^ n) * 2 ^ lo

/-- The `n` bytes of a value, least significant byte first (R9). -/
def leBytes : (n v : Nat) → List Byte
  | 0, _ => []
  | n + 1, v => BitVec.ofNat 8 v :: leBytes n (v / 256)

/-- The value that bytes hold, least significant byte first (R9). -/
def ofLE : List Byte → Nat
  | [] => 0
  | b :: bs => b.toNat + 256 * ofLE bs

/-- The `n` bytes of a value, most significant byte first (R9, Edgil headers). -/
def beBytes (n v : Nat) : List Byte := (leBytes n v).reverse

/-- The value that bytes hold, most significant byte first. -/
def ofBE (bs : List Byte) : Nat := ofLE bs.reverse

/-- A 32-bit count that saturates at 0xFFFF_FFFF. -/
def sat32 (n : Nat) : Nat := if n ≤ 0xFFFFFFFF then n else 0xFFFFFFFF

/-- A 16-bit count that saturates at 0xFFFF. -/
def sat16 (n : Nat) : Nat := if n ≤ 0xFFFF then n else 0xFFFF

/-- A Boolean as a bit. -/
def b2n (b : Bool) : Nat := if b then 1 else 0

/-- The least integer not below n / d (d positive). -/
def ceilDiv (n d : Nat) : Nat := (n + d - 1) / d

/-- The least integer not below n / d, for a signed numerator. -/
def ceilDivI (n : Int) (d : Nat) : Int := -((-n) / (d : Int))

/-- The integer nearest to n / d (d positive), a tie going to the even integer. -/
def nearEven (n : Int) (d : Nat) : Int :=
  let q := n / (d : Int)
  let r := n - q * d
  if 2 * r < d then q
  else if (d : Int) < 2 * r then q + 1
  else if q % 2 == 0 then q else q + 1

/-- A 64-bit word read as a signed two's-complement value (R151, R189). -/
def signed64 (v : Nat) : Int := if v < 2 ^ 63 then v else (v : Int) - 2 ^ 64

/-- Two's-complement 64-bit word of an integer. -/
def wrap64 (i : Int) : Nat := (i % 2 ^ 64).toNat

/-- Lengths up to a bound, ascending: 0, 1, …, n - 1. -/
def upTo : Nat → List Nat
  | 0 => []
  | n + 1 => upTo n ++ [n]

/-- Insert into a list sorted by a Boolean order, after the elements that come first. -/
def insertBy {α : Type} (lt : α → α → Bool) (x : α) : List α → List α
  | [] => [x]
  | y :: ys => if lt x y then x :: y :: ys else y :: insertBy lt x ys

/-- Replace the elements that meet a test. -/
def updateWhere {α : Type} (p : α → Bool) (f : α → α) (xs : List α) : List α :=
  xs.map fun x => if p x then f x else x

/-- Replace the element at one position; positions beyond the end change nothing. -/
def setAt {α : Type} : List α → Nat → α → List α
  | [], _, _ => []
  | _ :: xs, 0, y => y :: xs
  | x :: xs, n + 1, y => x :: setAt xs n y

/-- The first position at which a test holds. -/
def posOf {α : Type} (p : α → Bool) : List α → Option Nat
  | [] => none
  | x :: xs => if p x then some 0 else (posOf p xs).map (· + 1)

/-- Chunks of `n` elements, the last perhaps shorter; `fuel` bounds their count. -/
def chunks {α : Type} (n : Nat) : (fuel : Nat) → List α → List (List α)
  | 0, _ => []
  | _ + 1, [] => []
  | fuel + 1, xs => xs.take n :: chunks n fuel (xs.drop n)

/-- Pad a list on the right to a length. -/
def padTo {α : Type} (n : Nat) (d : α) (xs : List α) : List α :=
  xs ++ List.replicate (n - xs.length) d

/-! ## Sparse maps

A memory, a register file and every other store keyed by number is a list of (key, value) pairs with strictly
rising keys, in which no value equals what an unlisted key reads as. -/

/-- What a key reads as: its listed value, or the default. -/
def readAt {α : Type} (d : α) : List (Nat × α) → Nat → α
  | [], _ => d
  | (k, v) :: m, a => if k == a then v else readAt d m a

/-- Write one key, keeping keys rising and leaving the default unlisted. -/
def writeAt {α : Type} [DecidableEq α] (d : α) : List (Nat × α) → Nat → α → List (Nat × α)
  | [], a, x => if x = d then [] else [(a, x)]
  | (k, v) :: m, a, x =>
    if a < k then (if x = d then (k, v) :: m else (a, x) :: (k, v) :: m)
    else if a = k then (if x = d then m else (a, x) :: m)
    else (k, v) :: writeAt d m a x

/-- The canonical form: keys strictly rise above `lo` and no entry holds the default. -/
def wfFrom {α : Type} [DecidableEq α] (d : α) : (lo : Nat) → List (Nat × α) → Bool
  | _, [] => true
  | lo, (k, v) :: m => decide (lo ≤ k) && decide (v ≠ d) && wfFrom d (k + 1) m

/-- The canonical form of a sparse map. -/
def Sparse.wf {α : Type} [DecidableEq α] (d : α) (m : List (Nat × α)) : Bool := wfFrom d 0 m

/-- Bytes `a` to `a + n - 1` of a byte memory whose unlisted bytes read zero. -/
def readBytes (m : List (Nat × Byte)) : (a n : Nat) → List Byte
  | _, 0 => []
  | a, n + 1 => readAt 0 m a :: readBytes m (a + 1) n

/-- Write consecutive bytes from `a` upward. -/
def writeBytes (m : List (Nat × Byte)) : (a : Nat) → List Byte → List (Nat × Byte)
  | _, [] => m
  | a, b :: bs => writeBytes (writeAt 0 m a b) (a + 1) bs

/-- Every byte of a half-open range set to zero (its entries removed). -/
def clearRange (lo hi : Nat) (m : List (Nat × Byte)) : List (Nat × Byte) :=
  m.filter fun c => !(decide (lo ≤ c.1) && decide (c.1 < hi))

/-- The little-endian number of `n` bytes at `a`. -/
def readNum (m : List (Nat × Byte)) (a n : Nat) : Nat := ofLE (readBytes m a n)

end Sys2Proof.Machine
end

