-- ==== Sys2Proof/Machine/RegTable.lean ====
section
/-! DEFINITION. The register maps of the pages (R36, R68, R145, R180, R207, R241, R275, R302, R341, R342, R372, R373, R400,
R405, R438): for each register its offset, its instances, and its fields with access code, reset value and the values a
write may place. Reserved fields are left out: they read zero and ignore writes (R14). -/

namespace Sys2Proof.Machine

/-- The access codes of R13. -/
inductive Access where
  | ro | rw | wo | w1c | rwl
  deriving DecidableEq, Repr

/-- The values a write may place in a field without being refused under R15. -/
inductive Ok where
  | any
  | within (lo hi : Nat)
  | withinOr (lo hi other : Nat)
  | oneOf (vs : List Nat)
  | multiple (n : Nat)
  deriving DecidableEq, Repr

def Ok.allows : Ok → Nat → Bool
  | .any, _ => true
  | .within lo hi, v => decide (lo ≤ v) && decide (v ≤ hi)
  | .withinOr lo hi o, v => (decide (lo ≤ v) && decide (v ≤ hi)) || v == o
  | .oneOf vs, v => vs.contains v
  | .multiple n, v => v % n == 0

/-- One field of a register map: bits [hi:lo], access, reset value, allowed values. -/
structure Field where
  hi : Nat
  lo : Nat
  acc : Access
  reset : Nat
  ok : Ok := .any
  deriving DecidableEq, Repr

/-- One register of a page: `n` instances at `off`, `off + stride`, ...; `lowHalf` marks a name ending in _LO (R69). -/
structure RegRow where
  off : Nat
  n : Nat
  stride : Nat
  lowHalf : Bool
  fields : List Field
  deriving DecidableEq, Repr

def regsMod : List RegRow := [
  ⟨0x100, 1, 0x4, false, [⟨31, 16, .ro, 0x7720, .any⟩, ⟨15, 8, .ro, 0x3, .any⟩, ⟨7, 0, .ro, 0x1, .any⟩]⟩,  -- MOD_IDENT: PART, MEMBER, STEP
  ⟨0x104, 1, 0x4, false, [⟨31, 16, .ro, 0x1, .any⟩, ⟨15, 0, .ro, 0x0, .any⟩]⟩,  -- MOD_CONTRACT: MAJOR, MINOR
  ⟨0x108, 1, 0x4, false, [⟨1, 0, .ro, 0x0, .any⟩]⟩,  -- MOD_STATE: STATE
  ⟨0x10C, 1, 0x4, false, [⟨31, 0, .ro, 0x0, .any⟩]⟩,  -- MOD_EPOCH: EPOCH
  ⟨0x110, 1, 0x4, false, [⟨27, 24, .ro, 0x0, .any⟩, ⟨23, 16, .ro, 0x0, .any⟩, ⟨15, 8, .ro, 0x0, .any⟩, ⟨7, 0, .ro, 0x0, .any⟩]⟩,  -- MOD_GEOM: TREES, ACTIVE, ARRAY_K, ARRAY_N
  ⟨0x114, 1, 0x4, false, [⟨31, 16, .ro, 0x0, .any⟩, ⟨15, 8, .ro, 0x0, .any⟩, ⟨7, 0, .ro, 0x0, .any⟩]⟩,  -- MOD_CHAIN: FP32_LANES, FP64_LANES, VREGS
  ⟨0x118, 1, 0x4, false, [⟨15, 0, .ro, 0x0, .any⟩]⟩,  -- MOD_CLOCK: ARITH_MHZ
  ⟨0x120, 1, 0x4, false, [⟨31, 16, .ro, 0x0, .any⟩, ⟨15, 0, .ro, 0x0, .any⟩]⟩,  -- MOD_TSTORE: HUBCACHE_MIB, TSTORE_KIB
  ⟨0x124, 1, 0x4, false, [⟨31, 24, .ro, 0x0, .any⟩, ⟨15, 0, .ro, 0x0, .any⟩]⟩,  -- MOD_HBM: STACKS, HBM_GIB
  ⟨0x128, 1, 0x4, false, [⟨31, 16, .ro, 0x0, .any⟩, ⟨15, 0, .ro, 0x0, .any⟩]⟩,  -- MOD_DDR: CHANNELS, DDR_GIB
  ⟨0x12C, 1, 0x4, false, [⟨31, 16, .ro, 0x0, .any⟩, ⟨15, 0, .ro, 0x0, .any⟩]⟩,  -- MOD_FLASH: CHANNELS, FLASH_GIB
  ⟨0x130, 1, 0x4, false, [⟨7, 0, .ro, 0x0, .any⟩]⟩,  -- MOD_PORTS: PORTS
  ⟨0x11C, 1, 0x4, false, [⟨8, 8, .ro, 0x0, .any⟩, ⟨7, 7, .ro, 0x0, .any⟩, ⟨6, 6, .ro, 0x0, .any⟩, ⟨5, 5, .ro, 0x0, .any⟩, ⟨4, 4, .ro, 0x0, .any⟩, ⟨3, 3, .ro, 0x0, .any⟩, ⟨2, 2, .ro, 0x0, .any⟩, ⟨1, 1, .ro, 0x0, .any⟩, ⟨0, 0, .ro, 0x0, .any⟩]⟩,  -- MOD_FORMATS: LINING, WELT, FP64, FP32, FP16N, KX16, KX8, KX6, KX4
  ⟨0x200, 144, 0x4, false, [⟨9, 8, .ro, 0x0, .any⟩, ⟨7, 0, .ro, 0x0, .any⟩]⟩  -- MOD_CLUSTER_Tt_Cc: STATE, LOGICAL
  ]

def regsSth : List RegRow := [
  ⟨0x100, 1, 0x4, false, [⟨31, 0, .rw, 0xF4240, .within 0x4E20 0x2FAF080⟩]⟩,  -- STH_PERIOD: PERIOD_NS
  ⟨0x104, 1, 0x4, false, [⟨31, 0, .ro, 0xF4240, .any⟩]⟩,  -- STH_PERIOD_ACTIVE: PERIOD_NS
  ⟨0x108, 1, 0x4, true, [⟨31, 0, .rw, 0x0, .any⟩]⟩,  -- STH_ORIGIN_LO: ORIGIN
  ⟨0x10C, 1, 0x4, false, [⟨31, 0, .rw, 0x0, .any⟩]⟩,  -- STH_ORIGIN_HI: ORIGIN
  ⟨0x110, 1, 0x4, false, [⟨31, 0, .ro, 0xF387C, .any⟩]⟩,  -- STH_BUDGET: CYCLES
  ⟨0x114, 1, 0x4, true, [⟨31, 0, .ro, 0x0, .any⟩]⟩,  -- STH_NUMBER_LO: NUMBER
  ⟨0x118, 1, 0x4, false, [⟨31, 0, .ro, 0x0, .any⟩]⟩,  -- STH_NUMBER_HI: NUMBER
  ⟨0x11C, 1, 0x4, false, [⟨1, 1, .ro, 0x0, .any⟩, ⟨0, 0, .ro, 0x0, .any⟩]⟩,  -- STH_STATUS: PENDING, SHORT
  ⟨0x120, 1, 0x4, false, [⟨31, 0, .ro, 0x0, .any⟩]⟩,  -- STH_OVERRUNS: COUNT
  ⟨0x124, 1, 0x4, false, [⟨31, 0, .ro, 0x0, .any⟩]⟩,  -- STH_REFUSED: COUNT
  ⟨0x128, 1, 0x4, false, [⟨31, 0, .ro, 0x0, .any⟩]⟩,  -- STH_SLIPS: NS
  ⟨0x12C, 1, 0x4, false, [⟨31, 16, .ro, 0x1000, .any⟩, ⟨7, 0, .ro, 0x40, .any⟩]⟩  -- STH_WINDOW: HOLD_DEPTH, WINDOW
  ]

def regsTsc : List RegRow := [
  ⟨0x100, 1, 0x4, true, [⟨31, 0, .ro, 0x0, .any⟩]⟩,  -- TSC_NOW_LO: TIME
  ⟨0x104, 1, 0x4, false, [⟨31, 0, .ro, 0x0, .any⟩]⟩,  -- TSC_NOW_HI: TIME
  ⟨0x108, 1, 0x4, false, [⟨2, 2, .w1c, 0x0, .any⟩, ⟨1, 1, .ro, 0x0, .any⟩, ⟨0, 0, .ro, 0x0, .any⟩]⟩,  -- TSC_STATUS: STEPPED, HOLDOVER, LOCKED
  ⟨0x10C, 1, 0x4, false, [⟨31, 0, .ro, 0x0, .any⟩]⟩,  -- TSC_OFFSET: OFFSET
  ⟨0x110, 1, 0x4, false, [⟨31, 0, .ro, 0x0, .any⟩]⟩,  -- TSC_SLEW: PPB
  ⟨0x114, 1, 0x4, false, [⟨9, 8, .rw, 0x0, .within 0 2⟩, ⟨7, 0, .rw, 0x0, .any⟩]⟩  -- TSC_CONFIG: REF, DOMAIN
  ]

def regsEvt : List RegRow := [
  ⟨0x100, 1, 0x4, false, [⟨31, 0, .ro, 0xFFFFFFFF, .any⟩]⟩,  -- EVT_HEAD: SEQ
  ⟨0x104, 1, 0x4, false, [⟨31, 0, .ro, 0x0, .any⟩]⟩,  -- EVT_TAIL: SEQ
  ⟨0x108, 1, 0x4, false, [⟨31, 0, .ro, 0x0, .any⟩]⟩,  -- EVT_LOST: COUNT
  ⟨0x10C, 1, 0x4, false, [⟨7, 0, .rw, 0x0, .within 0 3⟩]⟩,  -- EVT_FILTER: MIN_SEV
  ⟨0x110, 1, 0x4, false, [⟨31, 16, .ro, 0x400, .any⟩]⟩,  -- EVT_CAPACITY: KEPT
  ⟨0x114, 1, 0x4, false, [⟨31, 0, .ro, 0x10000, .any⟩]⟩,  -- EVT_CAPACITY_TOTAL: RECORDS
  ⟨0x118, 1, 0x4, false, [⟨31, 0, .ro, 0x0, .any⟩]⟩  -- EVT_LOST_FAULT: COUNT
  ]

def regsMxa : List RegRow := [
  ⟨0x100, 1, 0x4, false, [⟨2, 2, .ro, 0x0, .any⟩, ⟨1, 1, .ro, 0x0, .any⟩, ⟨0, 0, .ro, 0x0, .any⟩]⟩,  -- MXA_STATUS: FENCE, LOAD, BUSY
  ⟨0x104, 1, 0x4, false, [⟨7, 4, .ro, 0x0, .any⟩, ⟨3, 2, .ro, 0x0, .any⟩, ⟨1, 1, .ro, 0x0, .any⟩, ⟨0, 0, .ro, 0x0, .any⟩]⟩,  -- MXA_CONFIG: FMT, MODE, REF, VALID
  ⟨0x108, 1, 0x4, false, [⟨7, 4, .ro, 0x4, .any⟩, ⟨3, 0, .ro, 0x0, .any⟩]⟩,  -- MXA_COLMAP: SPARE_LEFT, SPARE_USED
  ⟨0x10C, 1, 0x4, false, [⟨31, 31, .w1c, 0x0, .any⟩, ⟨23, 16, .ro, 0x0, .any⟩, ⟨15, 0, .ro, 0x0, .any⟩]⟩,  -- MXA_ISSUE_ERR: ERR, CODE, COUNT
  ⟨0x110, 1, 0x4, true, [⟨31, 0, .ro, 0x0, .any⟩]⟩,  -- MXA_BUSY_LO: CYCLES
  ⟨0x114, 1, 0x4, false, [⟨31, 0, .ro, 0x0, .any⟩]⟩,  -- MXA_BUSY_HI: CYCLES
  ⟨0x118, 1, 0x4, true, [⟨31, 0, .ro, 0x0, .any⟩]⟩,  -- MXA_BUBBLE_LO: SLICES
  ⟨0x11C, 1, 0x4, false, [⟨31, 0, .ro, 0x0, .any⟩]⟩,  -- MXA_BUBBLE_HI: SLICES
  ⟨0x120, 1, 0x4, false, [⟨31, 0, .ro, 0x0, .any⟩]⟩,  -- MXA_FENCE_COUNT: COUNT
  ⟨0x124, 1, 0x4, false, [⟨31, 0, .ro, 0x0, .any⟩]⟩,  -- MXA_FENCE_CYCLES: CYCLES
  ⟨0x128, 1, 0x4, false, [⟨0, 0, .rw, 0x0, .any⟩]⟩  -- MXA_DEBUG: EN
  ]

def regsDrn : List RegRow := [
  ⟨0x100, 1, 0x4, false, [⟨14, 8, .ro, 0x0, .any⟩, ⟨1, 1, .ro, 0x0, .any⟩, ⟨0, 0, .ro, 0x0, .any⟩]⟩,  -- DRN_STATUS: SLOTS_HELD, TAP, BUSY
  ⟨0x104, 1, 0x4, false, [⟨31, 0, .ro, 0x100000, .any⟩]⟩,  -- DRN_STORE: BYTES
  ⟨0x108, 1, 0x4, false, [⟨7, 0, .wo, 0x0, .any⟩]⟩,  -- DRN_CNT_CLEAR: SETS
  ⟨0x10C, 1, 0x4, false, [⟨15, 4, .ro, 0x0, .any⟩, ⟨1, 1, .w1c, 0x0, .any⟩, ⟨0, 0, .ro, 0x0, .any⟩]⟩,  -- DRN_STAT_RUN: NEXT, SEQ_ERR, ACTIVE
  ⟨0x110, 1, 0x4, false, [⟨23, 18, .rw, 0x0, .any⟩, ⟨17, 10, .rw, 0x0, .any⟩, ⟨9, 3, .rw, 0x0, .any⟩, ⟨1, 0, .rw, 0x0, .within 0 1⟩]⟩,  -- DRN_DBG_SEL: SLOT, ROW, COL, PART
  ⟨0x114, 1, 0x4, false, [⟨31, 0, .ro, 0x0, .any⟩]⟩,  -- DRN_DBG_DATA: VALUE
  ⟨0x200, 8, 0x20, false, [⟨31, 0, .ro, 0x0, .any⟩]⟩,  -- DRN_CNT_c: ZEROED
  ⟨0x204, 8, 0x20, false, [⟨31, 0, .ro, 0x0, .any⟩]⟩,  -- DRN_CNT_c: SATURATED
  ⟨0x208, 8, 0x20, false, [⟨31, 0, .ro, 0x0, .any⟩]⟩,  -- DRN_CNT_c: OUT_INF
  ⟨0x20C, 8, 0x20, false, [⟨31, 0, .ro, 0x0, .any⟩]⟩,  -- DRN_CNT_c: OUT_NAN
  ⟨0x210, 8, 0x20, false, [⟨31, 0, .ro, 0x0, .any⟩]⟩,  -- DRN_CNT_c: FALLBACK
  ⟨0x214, 8, 0x20, false, [⟨31, 0, .ro, 0x0, .any⟩]⟩,  -- DRN_CNT_c: EMPTY_ROWS
  ⟨0x218, 8, 0x20, false, [⟨31, 0, .ro, 0x0, .any⟩]⟩,  -- DRN_CNT_c: NAN_ROWS
  ⟨0x21C, 8, 0x20, false, []⟩  -- DRN_CNT_c: 
  ]

def regsLch : List RegRow := [
  ⟨0x100, 1, 0x4, false, [⟨2, 2, .ro, 0x0, .any⟩, ⟨1, 1, .ro, 0x0, .any⟩, ⟨0, 0, .ro, 0x0, .any⟩]⟩,  -- LCH_STATUS: WAIT, TAP, BUSY
  ⟨0x104, 1, 0x4, false, [⟨15, 0, .ro, 0x0, .any⟩]⟩,  -- LCH_VL: VL
  ⟨0x108, 1, 0x4, true, [⟨31, 0, .ro, 0x0, .any⟩]⟩,  -- LCH_CCW_LO: CCW
  ⟨0x10C, 1, 0x4, false, [⟨31, 0, .ro, 0x0, .any⟩]⟩,  -- LCH_CCW_HI: CCW
  ⟨0x110, 1, 0x4, false, [⟨31, 31, .w1c, 0x0, .any⟩, ⟨23, 16, .ro, 0x0, .any⟩, ⟨15, 0, .ro, 0x0, .any⟩]⟩,  -- LCH_ISSUE_ERR: ERR, CODE, COUNT
  ⟨0x114, 1, 0x4, false, [⟨31, 31, .ro, 0x0, .any⟩, ⟨19, 16, .ro, 0x0, .any⟩, ⟨15, 0, .ro, 0x0, .any⟩]⟩,  -- LCH_TQ: PATH, ENTRIES, KIB_USED
  ⟨0x118, 1, 0x4, false, [⟨31, 16, .ro, 0x8, .any⟩, ⟨15, 0, .ro, 0x200, .any⟩]⟩,  -- LCH_TQ_CAP: ENTRIES_MAX, KIB
  ⟨0x11C, 1, 0x4, true, [⟨31, 0, .ro, 0x0, .any⟩]⟩,  -- LCH_BUSY_LO: CYCLES
  ⟨0x120, 1, 0x4, false, [⟨31, 0, .ro, 0x0, .any⟩]⟩,  -- LCH_BUSY_HI: CYCLES
  ⟨0x124, 1, 0x4, false, [⟨7, 0, .wo, 0x0, .any⟩]⟩,  -- LCH_CNT_CLEAR: SETS
  ⟨0x128, 1, 0x4, false, [⟨31, 0, .ro, 0x0, .any⟩]⟩,  -- LCH_TQ_DISCARD: COUNT
  ⟨0x200, 8, 0x40, false, [⟨31, 0, .ro, 0x0, .any⟩]⟩,  -- LCH_CNT_c: INVALID
  ⟨0x204, 8, 0x40, false, [⟨31, 0, .ro, 0x0, .any⟩]⟩,  -- LCH_CNT_c: DIVZERO
  ⟨0x208, 8, 0x40, false, [⟨31, 0, .ro, 0x0, .any⟩]⟩,  -- LCH_CNT_c: OVERFLOW
  ⟨0x20C, 8, 0x40, false, [⟨31, 0, .ro, 0x0, .any⟩]⟩,  -- LCH_CNT_c: UNDERFLOW
  ⟨0x210, 8, 0x40, false, [⟨31, 0, .ro, 0x0, .any⟩]⟩,  -- LCH_CNT_c: NAN_IN
  ⟨0x214, 8, 0x40, false, [⟨31, 0, .ro, 0x0, .any⟩]⟩,  -- LCH_CNT_c: ZEROED
  ⟨0x218, 8, 0x40, false, [⟨31, 0, .ro, 0x0, .any⟩]⟩,  -- LCH_CNT_c: SATURATED
  ⟨0x21C, 8, 0x40, false, [⟨31, 0, .ro, 0x0, .any⟩]⟩,  -- LCH_CNT_c: PERM_RANGE
  ⟨0x220, 8, 0x40, false, [⟨31, 0, .ro, 0x0, .any⟩]⟩,  -- LCH_CNT_c: FALLBACK
  ⟨0x224, 8, 0x40, false, [⟨31, 0, .ro, 0x0, .any⟩]⟩,  -- LCH_CNT_c: INF_COUNT
  ⟨0x228, 8, 0x40, false, [⟨31, 0, .ro, 0x0, .any⟩]⟩,  -- LCH_CNT_c: NAN_COUNT
  ⟨0x22C, 8, 0x40, false, [⟨31, 0, .ro, 0x0, .any⟩]⟩,  -- LCH_CNT_c: COUNT
  ⟨0x230, 8, 0x40, true, [⟨31, 0, .ro, 0x0, .any⟩]⟩,  -- LCH_CNT_c: SUMSQ_LO
  ⟨0x234, 8, 0x40, false, [⟨31, 0, .ro, 0x0, .any⟩]⟩,  -- LCH_CNT_c: SUMSQ_HI
  ⟨0x238, 8, 0x40, true, [⟨31, 0, .ro, 0x0, .any⟩]⟩,  -- LCH_CNT_c: MAXABS_LO
  ⟨0x23C, 8, 0x40, false, [⟨31, 0, .ro, 0x0, .any⟩]⟩  -- LCH_CNT_c: MAXABS_HI
  ]

def regsPmc : List RegRow := [
  ⟨0x100, 1, 0x4, false, [⟨10, 8, .ro, 0x0, .any⟩, ⟨7, 5, .ro, 0x0, .any⟩, ⟨1, 0, .ro, 0x3, .any⟩]⟩,  -- PMC_STATUS: ACTIVE, WAITING, RUNNING
  ⟨0x104, 1, 0x4, false, [⟨31, 0, .ro, 0x0, .any⟩]⟩,  -- PMC_TAG_F: TAG
  ⟨0x108, 1, 0x4, false, [⟨31, 0, .ro, 0x0, .any⟩]⟩,  -- PMC_TAG_B: TAG
  ⟨0x10C, 1, 0x4, false, [⟨31, 0, .ro, 0x0, .any⟩]⟩,  -- PMC_TAG_U: TAG
  ⟨0x110, 1, 0x4, false, [⟨31, 31, .w1c, 0x0, .any⟩, ⟨25, 24, .ro, 0x0, .any⟩, ⟨23, 16, .ro, 0x0, .any⟩, ⟨15, 0, .ro, 0x0, .any⟩]⟩,  -- PMC_ERR: ERR, CTX, CODE, COUNT
  ⟨0x114, 1, 0x4, false, [⟨31, 0, .ro, 0x0, .any⟩]⟩,  -- PMC_ERR_PC: OFFSET
  ⟨0x118, 1, 0x4, true, [⟨31, 0, .ro, 0x0, .any⟩]⟩,  -- PMC_SWITCH_LO: COUNT
  ⟨0x11C, 1, 0x4, false, [⟨31, 0, .ro, 0x0, .any⟩]⟩,  -- PMC_SWITCH_HI: COUNT
  ⟨0x120, 1, 0x4, true, [⟨31, 0, .ro, 0x0, .any⟩]⟩,  -- PMC_ISSUED_LO: COUNT
  ⟨0x124, 1, 0x4, false, [⟨31, 0, .ro, 0x0, .any⟩]⟩  -- PMC_ISSUED_HI: COUNT
  ]

def regsPmcHub : List RegRow := [
  ⟨0x1000, 4096, 0x8, false, [⟨31, 0, .rw, 0x0, .any⟩]⟩,  -- PMC_BKL_COUNT_n: COUNT
  ⟨0x1004, 4096, 0x8, false, [⟨15, 0, .rw, 0x0, .any⟩]⟩  -- PMC_BKL_JOB_n: JOB
  ]

def regsTst : List RegRow := [
  ⟨0x100, 1, 0x4, false, [⟨31, 0, .ro, 0x1000000, .any⟩]⟩,  -- TST_SIZE: BYTES
  ⟨0x104, 1, 0x4, false, [⟨15, 0, .ro, 0x0, .any⟩]⟩,  -- TST_SPLIT: T0_KIB
  ⟨0x110, 4, 0x4, false, [⟨31, 16, .ro, 0x0, .any⟩, ⟨7, 3, .ro, 0x0, .any⟩, ⟨0, 0, .ro, 0x0, .any⟩]⟩,  -- TST_PF_n: DELIVERED, HELD, ACTIVE
  ⟨0x120, 1, 0x4, true, [⟨31, 0, .ro, 0x0, .any⟩]⟩,  -- TST_CONFLICT_LO: CYCLES
  ⟨0x124, 1, 0x4, false, [⟨31, 0, .ro, 0x0, .any⟩]⟩  -- TST_CONFLICT_HI: CYCLES
  ]

def regsSbga : List RegRow := [
  ⟨0x100, 1, 0x4, false, [⟨0, 0, .ro, 0x0, .any⟩]⟩,  -- SBG_STATUS: PENDING
  ⟨0x104, 1, 0x4, false, [⟨31, 0, .ro, 0x0, .any⟩]⟩,  -- SBG_MAPPED_W: PAGES
  ⟨0x108, 1, 0x4, false, [⟨31, 0, .ro, 0x0, .any⟩]⟩,  -- SBG_MAPPED_LIB: PAGES
  ⟨0x10C, 1, 0x4, false, [⟨31, 0, .ro, 0x0, .any⟩]⟩,  -- SBG_MAPPED_LENT: PAGES
  ⟨0x110, 1, 0x4, false, [⟨31, 0, .ro, 0x0, .any⟩]⟩,  -- SBG_PINNED_T1: PAGES
  ⟨0x114, 1, 0x4, false, [⟨15, 0, .rw, 0x0, .oneOf [0, 0x800, 0x1000, 0x2000]⟩]⟩,  -- SBG_T0: TSTORE_KIB
  ⟨0x120, 1, 0x4, true, [⟨31, 0, .rw, 0x0, .any⟩]⟩,  -- SBG_PG_ADDR_LO: ADDR
  ⟨0x124, 1, 0x4, false, [⟨31, 0, .rw, 0x0, .any⟩]⟩,  -- SBG_PG_ADDR_HI: ADDR
  ⟨0x128, 1, 0x4, false, [⟨16, 0, .rw, 0x1, .any⟩]⟩,  -- SBG_PG_COUNT: COUNT
  ⟨0x12C, 1, 0x4, false, [⟨15, 0, .rw, 0x0, .any⟩]⟩,  -- SBG_PG_HINT: HINT
  ⟨0x130, 1, 0x4, false, [⟨3, 0, .wo, 0x0, .within 0 5⟩]⟩,  -- SBG_PG_CMD: OP
  ⟨0x134, 1, 0x4, false, [⟨31, 8, .ro, 0x0, .any⟩, ⟨7, 0, .ro, 0x0, .any⟩]⟩,  -- SBG_PG_RESULT: INDEX, RESULT
  ⟨0x138, 1, 0x4, false, [⟨10, 8, .ro, 0x0, .any⟩, ⟨7, 7, .ro, 0x0, .any⟩, ⟨6, 6, .ro, 0x0, .any⟩, ⟨1, 0, .ro, 0x0, .any⟩]⟩,  -- SBG_PG_STATE: WHERE, PINNED, PENDING, KIND
  ⟨0x140, 1, 0x4, false, [⟨0, 0, .rw, 0x0, .any⟩]⟩,  -- SBG_CONV: SAT
  ⟨0x144, 1, 0x4, false, [⟨31, 0, .ro, 0x0, .any⟩]⟩,  -- SBG_CONV_ZEROED: COUNT
  ⟨0x148, 1, 0x4, false, [⟨31, 0, .ro, 0x0, .any⟩]⟩,  -- SBG_CONV_SAT: COUNT
  ⟨0x160, 1, 0x4, false, [⟨31, 0, .ro, 0x2000, .any⟩]⟩,  -- SBG_FTL_OP: GIB
  ⟨0x164, 1, 0x4, false, [⟨31, 0, .ro, 0x0, .any⟩]⟩,  -- SBG_FTL_RETIRED: BLOCKS
  ⟨0x168, 1, 0x4, false, [⟨31, 16, .ro, 0x0, .any⟩, ⟨15, 0, .ro, 0x0, .any⟩]⟩,  -- SBG_FTL_ERASE: MAX, MIN
  ⟨0x16C, 1, 0x4, false, [⟨31, 0, .ro, 0x0, .any⟩]⟩,  -- SBG_FTL_REFRESH: COUNT
  ⟨0x170, 1, 0x4, false, [⟨31, 0, .ro, 0x0, .any⟩]⟩,  -- SBG_FTL_LOST: PAGES
  ⟨0x174, 1, 0x4, false, [⟨31, 30, .wo, 0x0, .within 0 2⟩, ⟨20, 0, .wo, 0x0, .any⟩]⟩,  -- SBG_FTL_CMD: OP, BLOCK
  ⟨0x180, 1, 0x4, false, [⟨31, 0, .ro, 0x0, .any⟩]⟩,  -- SBG_LEND_IN: PAGES
  ⟨0x184, 1, 0x4, false, [⟨31, 0, .ro, 0x0, .any⟩]⟩,  -- SBG_LEND_OUT: PAGES
  ⟨0x188, 1, 0x4, false, [⟨15, 0, .rw, 0x64, .within 1 400⟩]⟩,  -- SBG_LEND_LIMIT: GBPS
  ⟨0x400, 16, 0x40, true, [⟨31, 0, .rw, 0x0, .any⟩]⟩,  -- SBG_SCH_BASE_LO: BASE
  ⟨0x404, 16, 0x40, false, [⟨31, 0, .rw, 0x0, .any⟩]⟩,  -- SBG_SCH_BASE_HI: BASE
  ⟨0x408, 16, 0x40, false, [⟨19, 0, .rw, 0x0, .any⟩]⟩,  -- SBG_SCH_COUNT: COUNT
  ⟨0x40C, 16, 0x40, false, [⟨15, 0, .rw, 0x0, .any⟩]⟩,  -- SBG_SCH_JOB: JOB
  ⟨0x410, 16, 0x40, true, [⟨31, 0, .rw, 0x0, .any⟩]⟩,  -- SBG_SCH_STITCH0_LO: STITCH0
  ⟨0x414, 16, 0x40, false, [⟨31, 0, .rw, 0x0, .any⟩]⟩,  -- SBG_SCH_STITCH0_HI: STITCH0
  ⟨0x418, 16, 0x40, false, [⟨1, 1, .rw, 0x0, .any⟩, ⟨0, 0, .rw, 0x0, .any⟩]⟩,  -- SBG_SCH_CTRL: FORCED, EN
  ⟨0x41C, 16, 0x40, false, [⟨19, 0, .ro, 0x0, .any⟩]⟩,  -- SBG_SCH_NEXT: ENTRY
  ⟨0x420, 16, 0x40, true, [⟨31, 0, .rw, 0x0, .any⟩]⟩,  -- SBG_SCH_DLOG_LO: ADDR
  ⟨0x424, 16, 0x40, false, [⟨31, 0, .rw, 0x0, .any⟩]⟩,  -- SBG_SCH_DLOG_HI: ADDR
  ⟨0x428, 16, 0x40, false, [⟨19, 0, .rw, 0x0, .any⟩]⟩,  -- SBG_SCH_DLOG_CAP: RECORDS
  ⟨0x42C, 16, 0x40, false, [⟨31, 31, .w1c, 0x0, .any⟩, ⟨19, 0, .ro, 0x0, .any⟩]⟩,  -- SBG_SCH_DLOG_USED: OVF, RECORDS
  ⟨0x430, 16, 0x40, true, [⟨31, 0, .rw, 0x0, .any⟩]⟩,  -- SBG_SCH_DIR_LO: ADDR
  ⟨0x434, 16, 0x40, false, [⟨31, 0, .rw, 0x0, .any⟩]⟩,  -- SBG_SCH_DIR_HI: ADDR
  ⟨0x438, 16, 0x40, false, [⟨19, 0, .rw, 0x0, .any⟩]⟩  -- SBG_SCH_DIR_COUNT: RECORDS
  ]

def regsSbgb : List RegRow := [
  ⟨0x43C, 16, 0x40, false, [⟨31, 0, .ro, 0x0, .any⟩]⟩  -- SBG_SCH_MISSES: COUNT
  ]

def regsSbg : List RegRow := regsSbga ++ regsSbgb

def regsTrn : List RegRow := [
  ⟨0x100, 1, 0x4, false, [⟨13, 8, .rw, 0x8, .within 0 32⟩, ⟨5, 0, .rw, 0x1, .within 0 32⟩]⟩,  -- TRN_FB_THRESH: ZERO_T, SAT_T
  ⟨0x104, 1, 0x4, false, [⟨15, 0, .rw, 0x20, .any⟩]⟩,  -- TRN_STASH_LIMIT: KPOS
  ⟨0x400, 16, 0x80, false, [⟨31, 31, .rw, 0x0, .any⟩, ⟨15, 0, .rw, 0x0, .any⟩]⟩,  -- TRN_JOB: EN, JOB
  ⟨0x404, 16, 0x80, false, [⟨2, 2, .rw, 0x0, .any⟩, ⟨1, 1, .wo, 0x0, .any⟩]⟩,  -- TRN_CTRL: REPLAY, RESUME
  ⟨0x408, 16, 0x80, false, [⟨31, 0, .wo, 0x0, .any⟩]⟩,  -- TRN_CLOSE: STEP
  ⟨0x40C, 16, 0x80, false, [⟨2, 2, .ro, 0x0, .any⟩, ⟨1, 1, .w1c, 0x0, .any⟩, ⟨0, 0, .ro, 0x0, .any⟩]⟩,  -- TRN_STATUS: HALT, DIVERGE, PENDING
  ⟨0x410, 16, 0x80, true, [⟨31, 0, .rw, 0x0, .any⟩]⟩,  -- TRN_STEP_LO: STEP
  ⟨0x414, 16, 0x80, false, [⟨31, 0, .rw, 0x0, .any⟩]⟩,  -- TRN_STEP_HI: STEP
  ⟨0x418, 16, 0x80, true, [⟨31, 0, .rw, 0x0, .any⟩]⟩,  -- TRN_SEED_LO: SEED
  ⟨0x41C, 16, 0x80, false, [⟨31, 0, .rw, 0x0, .any⟩]⟩,  -- TRN_SEED_HI: SEED
  ⟨0x420, 16, 0x80, false, [⟨31, 16, .rw, 0x3E8, .within 1 65535⟩, ⟨4, 0, .rw, 0x10, .within 0 24⟩]⟩,  -- TRN_SCALE: INTERVAL, EXP
  ⟨0x424, 16, 0x80, false, [⟨15, 0, .rw, 0x0, .any⟩]⟩,  -- TRN_CLEAN: COUNT
  ⟨0x428, 16, 0x80, false, [⟨31, 24, .rw, 0x1, .any⟩, ⟨23, 8, .rw, 0x0, .any⟩, ⟨3, 2, .ro, 0x1, .any⟩, ⟨1, 0, .rw, 0x0, .within 0 2⟩]⟩,  -- TRN_STASH: TEAMS, KPOS, EFFECT, MODE
  ⟨0x42C, 16, 0x80, false, [⟨31, 16, .rw, 0x8, .within 1 4096⟩, ⟨15, 8, .rw, 0x1, .within 1 255⟩, ⟨1, 0, .rw, 0x0, .within 0 2⟩]⟩,  -- TRN_FB: GRANT, SPAN, POLICY
  ⟨0x430, 16, 0x80, false, [⟨15, 0, .rw, 0x64, .any⟩]⟩,  -- TRN_FB_RETURN: STEPS
  ⟨0x434, 16, 0x80, true, [⟨31, 0, .rw, 0x0, .multiple 8⟩]⟩,  -- TRN_FB_TABLE_LO: ADDR
  ⟨0x438, 16, 0x80, false, [⟨31, 0, .rw, 0x0, .any⟩]⟩,  -- TRN_FB_TABLE_HI: ADDR
  ⟨0x43C, 16, 0x80, false, [⟨12, 0, .rw, 0x0, .within 0 4096⟩]⟩,  -- TRN_FB_COUNT: LAYERS
  ⟨0x440, 16, 0x80, true, [⟨31, 0, .rw, 0x0, .multiple 16⟩]⟩,  -- TRN_FLAG_LO: ADDR
  ⟨0x444, 16, 0x80, false, [⟨31, 0, .rw, 0x0, .any⟩]⟩,  -- TRN_FLAG_HI: ADDR
  ⟨0x448, 16, 0x80, false, [⟨15, 8, .rw, 0x0, .any⟩, ⟨7, 0, .rw, 0x0, .any⟩]⟩,  -- TRN_WATCH: DRN_SETS, LCH_SETS
  ⟨0x44C, 16, 0x80, true, [⟨31, 0, .rw, 0x0, .multiple 64⟩]⟩,  -- TRN_STATE_LO: ADDR
  ⟨0x450, 16, 0x80, false, [⟨31, 0, .rw, 0x0, .any⟩]⟩,  -- TRN_STATE_HI: ADDR
  ⟨0x454, 16, 0x80, true, [⟨31, 0, .rw, 0x0, .multiple 1024⟩]⟩,  -- TRN_REC_LO: ADDR
  ⟨0x458, 16, 0x80, false, [⟨31, 0, .rw, 0x0, .any⟩]⟩,  -- TRN_REC_HI: ADDR
  ⟨0x45C, 16, 0x80, false, [⟨31, 16, .rw, 0x0, .within 1 65535⟩, ⟨15, 0, .rw, 0x0, .within 1 65535⟩]⟩,  -- TRN_REC_CFG: SLOTS, STRIDE_KIB
  ⟨0x460, 16, 0x80, true, [⟨31, 0, .rw, 0x0, .any⟩]⟩,  -- TRN_RPL_LO: ADDR
  ⟨0x464, 16, 0x80, false, [⟨31, 0, .rw, 0x0, .any⟩]⟩,  -- TRN_RPL_HI: ADDR
  ⟨0x468, 16, 0x80, false, [⟨31, 0, .ro, 0x0, .any⟩]⟩,  -- TRN_OVERFLOWS: COUNT
  ⟨0x46C, 16, 0x80, false, [⟨31, 0, .ro, 0x0, .any⟩]⟩  -- TRN_DISCARDS: COUNT
  ]

def regsRng : List RegRow := [
  ⟨0x100, 1, 0x4, true, [⟨31, 0, .rw, 0x0, .any⟩]⟩,  -- RNG_TEST_KEY_LO: KEY
  ⟨0x104, 1, 0x4, false, [⟨31, 0, .rw, 0x0, .any⟩]⟩,  -- RNG_TEST_KEY_HI: KEY
  ⟨0x108, 1, 0x4, false, [⟨31, 0, .rw, 0x0, .any⟩]⟩,  -- RNG_TEST_P: P
  ⟨0x10C, 1, 0x4, false, [⟨31, 0, .rw, 0x0, .any⟩]⟩,  -- RNG_TEST_T: T
  ⟨0x110, 1, 0x4, true, [⟨31, 0, .rw, 0x0, .any⟩]⟩,  -- RNG_TEST_Q_LO: Q
  ⟨0x114, 1, 0x4, false, [⟨31, 0, .rw, 0x0, .any⟩]⟩,  -- RNG_TEST_Q_HI: Q
  ⟨0x118, 1, 0x4, false, [⟨31, 0, .ro, 0x157BF3EA, .any⟩]⟩,  -- RNG_TEST: OUT
  ⟨0x120, 1, 0x4, true, [⟨31, 0, .rw, 0x0, .multiple 4⟩]⟩,  -- RNG_TBL_LO: ADDR
  ⟨0x124, 1, 0x4, false, [⟨31, 0, .rw, 0x0, .any⟩]⟩,  -- RNG_TBL_HI: ADDR
  ⟨0x128, 1, 0x4, false, [⟨26, 0, .rw, 0x0, .within 0 0x4000000⟩]⟩  -- RNG_TBL_LEN: ENTRIES
  ]

def regsGrt : List RegRow := [
  ⟨0x100, 1, 0x4, false, [⟨11, 0, .ro, 0x0, .any⟩]⟩,  -- GRT_STATUS: INFLIGHT
  ⟨0x104, 1, 0x4, false, [⟨31, 0, .ro, 0x0, .any⟩]⟩,  -- GRT_DROPPED: COUNT
  ⟨0x108, 1, 0x4, false, [⟨31, 0, .ro, 0x0, .any⟩]⟩,  -- GRT_FAILS: COUNT
  ⟨0x120, 8, 0x4, false, [⟨16, 8, .ro, 0x0, .any⟩, ⟨6, 5, .ro, 0x2, .any⟩, ⟨4, 0, .ro, 0x10, .any⟩]⟩,  -- GRT_PORT_n: INFLIGHT, SPARE_LEFT, LANES
  ⟨0x400, 16, 0x80, false, [⟨31, 31, .rw, 0x0, .any⟩, ⟨30, 30, .rw, 0x0, .any⟩, ⟨15, 0, .rw, 0x0, .any⟩]⟩,  -- GRT_GRP_CTRL: EN, FORCED, JOB
  ⟨0x404, 16, 0x80, false, [⟨31, 16, .rw, 0x1, .within 1 4096⟩, ⟨11, 0, .rw, 0x0, .any⟩]⟩,  -- GRT_GRP_RANK: NRANK, RANK
  ⟨0x408, 16, 0x80, false, [⟨3, 0, .rw, 0x8, .within 1 8⟩]⟩,  -- GRT_GRP_SHAPE: TEAMSZ
  ⟨0x40C, 16, 0x80, true, [⟨31, 0, .rw, 0x0, .multiple 4⟩]⟩,  -- GRT_GRP_MEMBERS_LO: ADDR
  ⟨0x410, 16, 0x80, false, [⟨31, 0, .rw, 0x0, .any⟩]⟩,  -- GRT_GRP_MEMBERS_HI: ADDR
  ⟨0x414, 16, 0x80, true, [⟨31, 0, .rw, 0x0, .multiple 32⟩]⟩,  -- GRT_GRP_TABLE_LO: ADDR
  ⟨0x418, 16, 0x80, false, [⟨31, 0, .rw, 0x0, .any⟩]⟩,  -- GRT_GRP_TABLE_HI: ADDR
  ⟨0x41C, 16, 0x80, false, [⟨11, 0, .rw, 0x0, .any⟩]⟩,  -- GRT_GRP_ENTRIES: COUNT
  ⟨0x420, 16, 0x80, false, [⟨31, 16, .rw, 0x14, .within 5 1000⟩, ⟨15, 0, .rw, 0x64, .within 5 65535⟩]⟩,  -- GRT_GRP_TIMING: GRACE_US, VOTE_US
  ⟨0x424, 16, 0x80, false, [⟨31, 0, .rw, 0x1388, .within 1 0x2FAF080⟩]⟩,  -- GRT_GRP_FAIL: FAIL_US
  ⟨0x428, 16, 0x80, true, [⟨31, 0, .rw, 0x0, .multiple 16⟩]⟩,  -- GRT_GRP_MLOG_LO: ADDR
  ⟨0x42C, 16, 0x80, false, [⟨31, 0, .rw, 0x0, .any⟩]⟩,  -- GRT_GRP_MLOG_HI: ADDR
  ⟨0x430, 16, 0x80, false, [⟨31, 0, .rw, 0x0, .multiple 16⟩]⟩,  -- GRT_GRP_MLOG_SIZE: BYTES
  ⟨0x434, 16, 0x80, false, [⟨31, 0, .ro, 0x0, .any⟩]⟩,  -- GRT_GRP_MLOG_NEXT: OFFSET
  ⟨0x438, 16, 0x80, true, [⟨31, 0, .rw, 0x0, .multiple 16⟩]⟩,  -- GRT_GRP_DIR_LO: ADDR
  ⟨0x43C, 16, 0x80, false, [⟨31, 0, .rw, 0x0, .any⟩]⟩,  -- GRT_GRP_DIR_HI: ADDR
  ⟨0x440, 16, 0x80, false, [⟨31, 0, .rw, 0x0, .any⟩]⟩,  -- GRT_GRP_DIR_LEN: BYTES
  ⟨0x444, 16, 0x80, false, [⟨31, 0, .ro, 0x0, .any⟩]⟩,  -- GRT_GRP_ENDED: COUNT
  ⟨0x448, 16, 0x80, false, [⟨31, 0, .ro, 0x0, .any⟩]⟩,  -- GRT_GRP_PARTIAL: COUNT
  ⟨0x44C, 16, 0x80, false, [⟨31, 0, .ro, 0x0, .any⟩]⟩,  -- GRT_GRP_FAILED: COUNT
  ⟨0x450, 16, 0x80, false, [⟨1, 1, .wo, 0x0, .any⟩, ⟨0, 0, .wo, 0x0, .any⟩]⟩  -- GRT_GRP_VOTE: MISSING, FLAG
  ]

def regsEdg : List RegRow := [
  ⟨0x100, 1, 0x4, false, [⟨15, 0, .rw, 0xFFFF, .withinOr 0 0xFFFD 0xFFFF⟩]⟩,  -- EDG_MODNUM: MODNUM
  ⟨0x104, 1, 0x4, false, [⟨3, 3, .rw, 0x0, .any⟩, ⟨2, 0, .rw, 0x0, .any⟩]⟩,  -- EDG_FABRIC: EN, SLOT
  ⟨0x108, 1, 0x4, true, [⟨31, 0, .rw, 0x0, .multiple 32⟩]⟩,  -- EDG_PEER_LO: ADDR
  ⟨0x10C, 1, 0x4, false, [⟨31, 0, .rw, 0x0, .any⟩]⟩,  -- EDG_PEER_HI: ADDR
  ⟨0x110, 1, 0x4, false, [⟨16, 16, .wo, 0x0, .any⟩, ⟨15, 0, .rw, 0x0, .within 0 0xFFFE⟩]⟩,  -- EDG_PEER_CTRL: RELOAD, COUNT
  ⟨0x114, 1, 0x4, false, [⟨31, 16, .rw, 0xC8, .within 10 10000⟩, ⟨15, 0, .rw, 0xA, .within 1 3600⟩]⟩,  -- EDG_TIMERS: RTO_US, IDLE_S
  ⟨0x118, 1, 0x4, false, [⟨15, 0, .rw, 0x2710, .within 0 60000⟩]⟩,  -- EDG_LINGER: MS
  ⟨0x11C, 1, 0x4, false, [⟨11, 8, .ro, 0x0, .any⟩, ⟨5, 0, .ro, 0x0, .any⟩]⟩,  -- EDG_SESS: PENDING, OPEN
  ⟨0x120, 1, 0x4, false, [⟨0, 0, .rw, 0x0, .any⟩]⟩,  -- EDG_LEND: EN
  ⟨0x124, 1, 0x4, false, [⟨31, 0, .ro, 0x0, .any⟩]⟩,  -- EDG_AUTH_FAILS: COUNT
  ⟨0x128, 1, 0x4, false, [⟨31, 0, .ro, 0x0, .any⟩]⟩,  -- EDG_DROPS: COUNT
  ⟨0x12C, 1, 0x4, false, [⟨7, 0, .ro, 0x0, .any⟩]⟩,  -- EDG_SLOT_LOCK: LOCKED
  ⟨0x130, 1, 0x4, false, [⟨23, 0, .wo, 0x0, .any⟩]⟩,  -- EDG_CLOSE: SID
  ⟨0x200, 40, 0x8, false, [⟨31, 24, .ro, 0x0, .any⟩, ⟨23, 22, .ro, 0x0, .any⟩, ⟨21, 19, .ro, 0x0, .any⟩, ⟨15, 0, .ro, 0x0, .any⟩]⟩,  -- EDG_SESS_n: STATE, CLASS, SLOT, JOB
  ⟨0x204, 40, 0x8, false, [⟨23, 0, .ro, 0x0, .any⟩]⟩  -- EDG_SESS_ID_n: SID
  ]

def regsEdgPort : List RegRow := [
  ⟨0x100, 1, 0x4, false, [⟨11, 8, .ro, 0x0, .any⟩, ⟨7, 4, .ro, 0x0, .any⟩, ⟨3, 3, .ro, 0x0, .any⟩, ⟨1, 1, .ro, 0x0, .any⟩, ⟨0, 0, .ro, 0x0, .any⟩]⟩,  -- EDG_PORT_STATUS: MODE, LANES, SECURED, INSERV, LINK
  ⟨0x104, 1, 0x4, false, [⟨31, 31, .rw, 0x1, .any⟩, ⟨30, 27, .rw, 0xF, .any⟩, ⟨26, 26, .rw, 0x1, .any⟩, ⟨25, 24, .rw, 0x0, .within 0 2⟩, ⟨23, 23, .rw, 0x0, .any⟩, ⟨22, 20, .rw, 0x0, .any⟩, ⟨19, 19, .wo, 0x0, .any⟩, ⟨15, 13, .rw, 0x0, .any⟩, ⟨12, 12, .rw, 0x0, .any⟩, ⟨11, 0, .rw, 0x0, .any⟩]⟩,  -- EDG_PORT_CFG: EN, ALLOW, AN, MACSEC, REQSEC, CAK_SLOT, RETRAIN, PCP, VLAN_EN, VID
  ⟨0x108, 1, 0x4, true, [⟨31, 0, .ro, 0x0, .any⟩]⟩,  -- EDG_PORT_MAC_LO: MAC
  ⟨0x10C, 1, 0x4, false, [⟨15, 0, .ro, 0x0, .any⟩]⟩,  -- EDG_PORT_MAC_HI: MAC
  ⟨0x110, 1, 0x4, false, [⟨31, 0, .rw, 0x0, .any⟩]⟩,  -- EDG_PORT_IP4: ADDR
  ⟨0x114, 4, 0x4, false, [⟨31, 0, .rw, 0x0, .any⟩]⟩,  -- EDG_PORT_IP6_w: ADDR
  ⟨0x124, 1, 0x4, true, [⟨31, 0, .ro, 0x0, .any⟩]⟩,  -- EDG_PORT_FEC_CORR_LO: COUNT
  ⟨0x128, 1, 0x4, false, [⟨31, 0, .ro, 0x0, .any⟩]⟩,  -- EDG_PORT_FEC_CORR_HI: COUNT
  ⟨0x12C, 1, 0x4, false, [⟨31, 0, .ro, 0x0, .any⟩]⟩,  -- EDG_PORT_FEC_UNCORR: COUNT
  ⟨0x130, 1, 0x4, true, [⟨31, 0, .ro, 0x0, .any⟩]⟩,  -- EDG_PORT_RX_LO: FRAMES
  ⟨0x134, 1, 0x4, false, [⟨31, 0, .ro, 0x0, .any⟩]⟩,  -- EDG_PORT_RX_HI: FRAMES
  ⟨0x138, 1, 0x4, true, [⟨31, 0, .ro, 0x0, .any⟩]⟩,  -- EDG_PORT_TX_LO: FRAMES
  ⟨0x13C, 1, 0x4, false, [⟨31, 0, .ro, 0x0, .any⟩]⟩,  -- EDG_PORT_TX_HI: FRAMES
  ⟨0x140, 1, 0x4, false, [⟨31, 0, .ro, 0x0, .any⟩]⟩,  -- EDG_PORT_SEC_DROP: COUNT
  ⟨0x144, 1, 0x4, false, [⟨31, 0, .rw, 0x0, .any⟩]⟩,  -- EDG_PORT_REPLAY: WINDOW
  ⟨0x148, 1, 0x4, false, [⟨31, 0, .ro, 0x0, .any⟩]⟩  -- EDG_PORT_RX_DROP: COUNT
  ]

def regsSpr : List RegRow := [
  ⟨0x100, 1, 0x4, false, [⟨0, 0, .rw, 0x0, .any⟩]⟩,  -- SPR_CTRL: COVER
  ⟨0x104, 1, 0x4, false, [⟨31, 0, .ro, 0x7DDDE, .any⟩]⟩,  -- SPR_COVER_CAP: CYCLES
  ⟨0x108, 1, 0x4, false, [⟨15, 0, .ro, 0x0, .any⟩]⟩,  -- SPR_SPARES: TREES
  ⟨0x10C, 1, 0x4, false, [⟨31, 24, .ro, 0x0, .any⟩, ⟨11, 0, .ro, 0x0, .any⟩]⟩,  -- SPR_LAST: CODE, SOURCE
  ⟨0x110, 1, 0x4, true, [⟨31, 0, .ro, 0x0, .any⟩]⟩,  -- SPR_LAST_TIME_LO: TIME
  ⟨0x114, 1, 0x4, false, [⟨31, 0, .ro, 0x0, .any⟩]⟩,  -- SPR_LAST_TIME_HI: TIME
  ⟨0x118, 1, 0x4, false, [⟨31, 0, .ro, 0x0, .any⟩]⟩,  -- SPR_REPLAYS: COUNT
  ⟨0x11C, 1, 0x4, false, [⟨31, 31, .wo, 0x0, .any⟩, ⟨23, 16, .rw, 0x0, .within 0 127⟩, ⟨9, 8, .rw, 0x0, .any⟩, ⟨5, 0, .rw, 0x0, .within 32 35⟩]⟩,  -- SPR_SUBST: GO, LOGICAL, TREE, INDEX
  ⟨0x120, 1, 0x4, false, [⟨31, 0, .ro, 0x0, .any⟩]⟩,  -- SPR_MEM_UE: COUNT
  ⟨0x124, 1, 0x4, false, [⟨11, 11, .ro, 0x0, .any⟩, ⟨10, 10, .ro, 0x0, .any⟩, ⟨9, 0, .ro, 0x0, .any⟩]⟩,  -- SPR_POWER: STANDBY_OK, PLL, PHASES
  ⟨0x128, 1, 0x4, false, [⟨31, 16, .ro, 0x0, .any⟩, ⟨15, 0, .ro, 0x0, .any⟩]⟩,  -- SPR_SCRUB: HBM_PASSES, DDR_PASSES
  ⟨0x12C, 1, 0x4, false, [⟨31, 0, .ro, 0x0, .any⟩]⟩,  -- SPR_FW_RESTARTS: COUNT
  ⟨0x200, 8, 0x4, false, [⟨31, 16, .ro, 0x0, .any⟩, ⟨15, 8, .ro, 0x0, .any⟩, ⟨1, 0, .ro, 0x0, .any⟩]⟩,  -- SPR_HBM_h: CE, ROWS, PCH_LEFT
  ⟨0x240, 16, 0x4, false, [⟨31, 16, .ro, 0x0, .any⟩, ⟨15, 15, .ro, 0x0, .any⟩, ⟨14, 10, .ro, 0x0, .any⟩, ⟨9, 9, .ro, 0x0, .any⟩, ⟨8, 4, .ro, 0x0, .any⟩, ⟨0, 0, .ro, 0x0, .any⟩]⟩  -- SPR_DDR_d: CE, R1_ERASED, R1_DEV, R0_ERASED, R0_DEV, INSERV
  ]

def regsCkp : List RegRow := [
  ⟨0x100, 1, 0x4, false, [⟨31, 31, .wo, 0x0, .any⟩, ⟨30, 30, .wo, 0x0, .any⟩, ⟨3, 0, .rw, 0x0, .any⟩]⟩,  -- CKP_CTRL: ARM, CANCEL, SLOT
  ⟨0x104, 1, 0x4, false, [⟨15, 8, .ro, 0x0, .any⟩, ⟨2, 0, .ro, 0x0, .any⟩]⟩,  -- CKP_STATUS: CAUSE, STATE
  ⟨0x108, 1, 0x4, true, [⟨31, 0, .rw, 0x0, .any⟩]⟩,  -- CKP_STEP_LO: STEP
  ⟨0x10C, 1, 0x4, false, [⟨31, 0, .rw, 0x0, .any⟩]⟩,  -- CKP_STEP_HI: STEP
  ⟨0x110, 1, 0x4, true, [⟨31, 0, .rw, 0x0, .multiple 32⟩]⟩,  -- CKP_LIST_LO: ADDR
  ⟨0x114, 1, 0x4, false, [⟨31, 0, .rw, 0x0, .any⟩]⟩,  -- CKP_LIST_HI: ADDR
  ⟨0x118, 1, 0x4, false, [⟨15, 0, .rw, 0x0, .within 1 65535⟩]⟩,  -- CKP_LIST_COUNT: ENTRIES
  ⟨0x11C, 1, 0x4, false, [⟨23, 0, .rw, 0x0, .any⟩]⟩,  -- CKP_SID: SID
  ⟨0x120, 1, 0x4, false, [⟨31, 0, .rw, 0x0, .any⟩]⟩,  -- CKP_STREAM: STREAM
  ⟨0x124, 1, 0x4, false, [⟨15, 0, .rw, 0x1000, .within 256 16384⟩]⟩,  -- CKP_BUF: MIB
  ⟨0x128, 1, 0x4, true, [⟨31, 0, .ro, 0x0, .any⟩]⟩,  -- CKP_SENT_LO: BYTES
  ⟨0x12C, 1, 0x4, false, [⟨31, 0, .ro, 0x0, .any⟩]⟩,  -- CKP_SENT_HI: BYTES
  ⟨0x130, 1, 0x4, true, [⟨31, 0, .rw, 0x0, .multiple 0x200000⟩]⟩,  -- CKP_RELEASE_LO: ADDR
  ⟨0x134, 1, 0x4, false, [⟨31, 0, .wo, 0x0, .any⟩]⟩,  -- CKP_RELEASE_HI: ADDR
  ⟨0x138, 1, 0x4, false, [⟨0, 0, .wo, 0x0, .any⟩]⟩  -- CKP_DONE: DONE
  ]

def regsBoot : List RegRow := [
  ⟨0x100, 1, 0x4, false, [⟨2, 0, .ro, 0x0, .any⟩]⟩,  -- BOOT_STATE: STATE
  ⟨0x104, 1, 0x4, false, [⟨2, 0, .ro, 0x0, .any⟩]⟩,  -- BOOT_CAUSE: CAUSE
  ⟨0x108, 1, 0x4, false, [⟨3, 3, .ro, 0x0, .any⟩, ⟨2, 2, .rw, 0x0, .any⟩, ⟨1, 0, .ro, 0x0, .any⟩]⟩,  -- BOOT_IMAGE: FALLBACK, PREF, SLOT
  ⟨0x10C, 1, 0x4, false, [⟨31, 0, .ro, 0x0, .any⟩]⟩,  -- BOOT_FWVER: VERSION
  ⟨0x110, 1, 0x4, false, [⟨15, 8, .ro, 0x0, .any⟩, ⟨7, 0, .ro, 0x0, .any⟩]⟩,  -- BOOT_SVN: SVN, COUNTER
  ⟨0x114, 1, 0x4, false, [⟨31, 0, .ro, 0x0, .any⟩]⟩,  -- BOOT_COUNT: BOOTS
  ⟨0x120, 1, 0x4, true, [⟨31, 0, .rw, 0x0, .multiple 32⟩]⟩,  -- BOOT_UPD_ADDR_LO: ADDR
  ⟨0x124, 1, 0x4, false, [⟨31, 0, .rw, 0x0, .any⟩]⟩,  -- BOOT_UPD_ADDR_HI: ADDR
  ⟨0x128, 1, 0x4, false, [⟨31, 0, .rw, 0x0, .any⟩]⟩,  -- BOOT_UPD_LEN: BYTES
  ⟨0x12C, 1, 0x4, false, [⟨1, 0, .wo, 0x0, .within 0 2⟩]⟩,  -- BOOT_UPD_CMD: OP
  ⟨0x130, 1, 0x4, false, [⟨31, 31, .ro, 0x0, .any⟩, ⟨7, 0, .ro, 0x0, .any⟩]⟩,  -- BOOT_UPD_STATUS: BUSY, RESULT
  ⟨0x140, 3, 0x8, false, [⟨31, 0, .ro, 0x0, .any⟩]⟩,  -- BOOT_SLOT_n_VER: VERSION
  ⟨0x144, 3, 0x8, false, [⟨31, 31, .ro, 0x0, .any⟩, ⟨9, 8, .ro, 0x0, .any⟩, ⟨7, 0, .ro, 0x0, .any⟩]⟩  -- BOOT_SLOT_n_INFO: VALID, KEYIDX, SVN
  ]

def regsSec : List RegRow := [
  ⟨0x100, 1, 0x4, false, [⟨0, 0, .rwl, 0x0, .any⟩]⟩,  -- SEC_LOCK: BOOT_LOCK
  ⟨0x104, 1, 0x4, false, [⟨15, 8, .ro, 0x0, .any⟩, ⟨3, 0, .ro, 0x0, .any⟩]⟩,  -- SEC_FUSE: LIFECYCLE, REVOKED
  ⟨0x108, 1, 0x4, false, [⟨3, 3, .rwl, 0x0, .any⟩, ⟨2, 2, .rwl, 0x0, .any⟩, ⟨1, 1, .rwl, 0x0, .any⟩, ⟨0, 0, .rwl, 0x0, .any⟩]⟩,  -- SEC_POLICY: OPERATOR_RESET, SVN_COMMIT_ALLOW, FW_UPDATE_ALLOW, DEBUG_ALLOW
  ⟨0x10C, 1, 0x4, false, [⟨15, 15, .ro, 0x0, .any⟩, ⟨6, 0, .ro, 0x0, .any⟩]⟩,  -- SEC_MLOG: FULL, COUNT
  ⟨0x110, 1, 0x4, false, [⟨0, 0, .wo, 0x0, .any⟩]⟩,  -- SEC_RESET: GO
  ⟨0x120, 1, 0x4, true, [⟨31, 0, .rw, 0x0, .multiple 32⟩]⟩,  -- SEC_KS_ADDR_LO: ADDR
  ⟨0x124, 1, 0x4, false, [⟨31, 0, .rw, 0x0, .any⟩]⟩,  -- SEC_KS_ADDR_HI: ADDR
  ⟨0x128, 1, 0x4, false, [⟨0, 0, .wo, 0x0, .any⟩]⟩,  -- SEC_KS_CMD: GO
  ⟨0x12C, 1, 0x4, false, [⟨31, 31, .ro, 0x0, .any⟩, ⟨1, 1, .ro, 0x0, .any⟩, ⟨0, 0, .ro, 0x0, .any⟩]⟩,  -- SEC_KS_STATUS: BUSY, STAGED, REFUSED
  ⟨0x200, 8, 0x4, false, [⟨31, 31, .rwl, 0x0, .any⟩, ⟨26, 24, .rwl, 0x0, .any⟩, ⟨18, 16, .rwl, 0x0, .any⟩, ⟨0, 0, .rwl, 0x0, .any⟩]⟩,  -- SEC_SLOT_s: VALID, CLASSES, USE, PROVISION
  ⟨0x220, 8, 0x4, false, [⟨31, 16, .rwl, 0x0, .any⟩, ⟨15, 0, .rwl, 0x0, .any⟩]⟩,  -- SEC_SLOT_JOB_s: JOBMAX, JOBMIN
  ⟨0x300, 16, 0x10, false, [⟨24, 0, .rwl, 0x0, .any⟩]⟩,  -- SEC_REGION_BASE_r: PAGE
  ⟨0x304, 16, 0x10, false, [⟨24, 0, .rwl, 0x0, .any⟩]⟩,  -- SEC_REGION_LIMIT_r: PAGE
  ⟨0x308, 16, 0x10, false, [⟨31, 31, .rwl, 0x0, .any⟩, ⟨5, 0, .rwl, 0x0, .any⟩]⟩,  -- SEC_REGION_PERM_r: EN, PERM
  ⟨0x400, 48, 0x4, false, [⟨31, 0, .ro, 0x0, .any⟩]⟩  -- SEC_M_k_w: DIGEST
  ]

def regsHeader : List RegRow := [
  ⟨0x0, 1, 0x4, false, [⟨31, 24, .ro, 0x0, .any⟩, ⟨23, 16, .ro, 0x0, .any⟩, ⟨7, 7, .ro, 0x0, .any⟩, ⟨6, 6, .ro, 0x0, .any⟩]⟩,  -- PG_ID: TYPE, INSTANCE, GATED, ALIAS
  ⟨0x4, 1, 0x4, false, [⟨31, 16, .ro, 0x1, .any⟩, ⟨15, 0, .ro, 0x0, .any⟩]⟩,  -- PG_VERSION: MAJOR, MINOR
  ⟨0x8, 1, 0x4, false, [⟨31, 31, .rw, 0x1, .any⟩, ⟨30, 30, .rw, 0x0, .any⟩, ⟨29, 29, .wo, 0x0, .any⟩]⟩,  -- PG_CTRL: EN, DRAIN, ABORT
  ⟨0xC, 1, 0x4, false, [⟨17, 17, .ro, 0x0, .any⟩, ⟨16, 16, .ro, 0x1, .any⟩, ⟨15, 0, .ro, 0x0, .any⟩]⟩,  -- PG_STATUS: ABORTING, IDLE, USERS
  ⟨0x10, 1, 0x4, false, [⟨1, 0, .rw, 0x0, .any⟩]⟩,  -- PG_MODE: HOST
  ⟨0x14, 1, 0x4, false, [⟨1, 0, .ro, 0x0, .any⟩]⟩  -- PG_MODE_EFFECT: HOST
  ]

def regsPwr : List RegRow := [
  ⟨0x100, 1, 0x4, false, [⟨1, 0, .ro, 0x1, .any⟩]⟩,  -- PWR_STATE: STATE
  ⟨0x104, 1, 0x4, false, [⟨1, 0, .wo, 0x0, .any⟩]⟩,  -- PWR_CTRL: REQ
  ⟨0x108, 1, 0x4, false, [⟨31, 16, .ro, 0x0, .any⟩, ⟨15, 0, .ro, 0x0, .any⟩]⟩,  -- PWR_INPUT: VOLT, CURR
  ⟨0x10C, 1, 0x4, false, [⟨15, 0, .ro, 0x0, .any⟩]⟩,  -- PWR_POWER: WATTS
  ⟨0x110, 5, 0x4, false, [⟨15, 0, .ro, 0x0, .any⟩]⟩,  -- PWR_RAIL_n: WATTS
  ⟨0x130, 1, 0x4, false, [⟨31, 24, .ro, 0x0, .any⟩, ⟨23, 16, .ro, 0x0, .any⟩, ⟨15, 8, .ro, 0x0, .any⟩, ⟨7, 0, .ro, 0x0, .any⟩]⟩,  -- PWR_TEMP: JUNCTION, INLET, OUTLET, BOARD
  ⟨0x134, 1, 0x4, false, [⟨15, 0, .ro, 0x0, .any⟩]⟩,  -- PWR_FLOW: FLOW
  ⟨0x138, 1, 0x4, false, [⟨7, 0, .rw, 0x5F, .within 70 100⟩]⟩,  -- PWR_THERM: WARN_C
  ⟨0x13C, 1, 0x4, false, [⟨2, 2, .w1c, 0x0, .any⟩, ⟨1, 1, .w1c, 0x0, .any⟩, ⟨0, 0, .w1c, 0x0, .any⟩]⟩,  -- PWR_ALARM: FLOW_LOW, INLET_HOT, JUNCTION
  ⟨0x140, 1, 0x4, true, [⟨31, 0, .ro, 0x0, .any⟩]⟩,  -- PWR_ENERGY_LO: JOULES
  ⟨0x144, 1, 0x4, false, [⟨31, 0, .ro, 0x0, .any⟩]⟩,  -- PWR_ENERGY_HI: JOULES
  ⟨0x148, 1, 0x4, false, [⟨3, 3, .ro, 0x0, .any⟩, ⟨2, 2, .ro, 0x0, .any⟩, ⟨1, 1, .ro, 0x1, .any⟩, ⟨0, 0, .ro, 0x0, .any⟩]⟩  -- PWR_SB: TOD_VALID, PPS_SEEN, PWR_EN, ALERT
  ]

end Sys2Proof.Machine
end

