-- ==== Sys2Proof/Machine/Ieee.lean ====
section
/-! DEFINITION. IEEE 754-2019 binary16, binary32 and binary64 (R71, R72): decoding, encoding, correct rounding of an
exact rational to nearest with ties to even, and the operations the module performs on them. -/

namespace Sys2Proof.Machine

/-- A floating-point format: its precision in bits and the width of its exponent field. -/
structure Fmt where
  prec : Nat
  ebits : Nat
  deriving DecidableEq, Repr

def b16 : Fmt := ⟨11, 5⟩
def b32 : Fmt := ⟨24, 8⟩
def b64 : Fmt := ⟨53, 11⟩

/-- The exponent bias, which is also the exponent of the largest finite numbers. -/
def Fmt.bias (f : Fmt) : Nat := 2 ^ (f.ebits - 1) - 1

/-- The exponent of the last place of a subnormal number. -/
def Fmt.ulpMin (f : Fmt) : Int := 1 - (f.bias : Int) - ((f.prec : Int) - 1)

/-- A value of an IEEE format. A finite value is (-1)^neg · n · 2^e; n = 0 is a zero with a sign. Every NaN is the one NaN (R72). -/
inductive FVal where
  | nan
  | inf (neg : Bool)
  | fin (neg : Bool) (n : Nat) (e : Int)
  deriving DecidableEq, Repr

/-- Positive zero. -/
def fzero : FVal := .fin false 0 0

/-- 1.0. -/
def fone : FVal := .fin false 1 0

def FVal.isNaN : FVal → Bool
  | .nan => true
  | _ => false

def FVal.isInf : FVal → Bool
  | .inf _ => true
  | _ => false

def FVal.isZero : FVal → Bool
  | .fin _ n _ => n == 0
  | _ => false

def FVal.isFinite : FVal → Bool
  | .fin _ _ _ => true
  | _ => false

def FVal.sign : FVal → Bool
  | .nan => false
  | .inf s => s
  | .fin s _ _ => s

def FVal.neg : FVal → FVal
  | .nan => .nan
  | .inf s => .inf !s
  | .fin s n e => .fin (!s) n e

def FVal.abs : FVal → FVal
  | .nan => .nan
  | .inf _ => .inf false
  | .fin _ n e => .fin false n e

/-- A signed dyadic m · 2^e, the exact form in which sums are taken. -/
structure Dy where
  m : Int
  e : Int
  deriving DecidableEq, Repr

def Dy.zero : Dy := ⟨0, 0⟩

/-- m · 2^k for a non-negative k given as an integer (a negative k counts as zero). -/
def shl (m : Int) (k : Int) : Int := m * (2 ^ k.toNat : Nat)

def Dy.add (a b : Dy) : Dy :=
  if a.m == 0 then b
  else if b.m == 0 then a
  else if a.e ≤ b.e then ⟨a.m + shl b.m (b.e - a.e), a.e⟩
  else ⟨shl a.m (a.e - b.e) + b.m, b.e⟩

def Dy.mul (a b : Dy) : Dy := ⟨a.m * b.m, a.e + b.e⟩

def Dy.neg (a : Dy) : Dy := ⟨-a.m, a.e⟩

def Dy.sum (xs : List Dy) : Dy := xs.foldl Dy.add Dy.zero

/-- The exact value of a finite number (zero for the others, which callers exclude). -/
def FVal.dy : FVal → Dy
  | .fin s n e => ⟨if s then -(n : Int) else n, e⟩
  | _ => Dy.zero

/-- The comparison a < b of two dyadics. -/
def Dy.lt (a b : Dy) : Bool := decide ((Dy.add a b.neg).m < 0)

/-- floor(log2 (num / den)) for positive num and den. -/
def log2Q (num den : Nat) : Int :=
  let l : Int := (num.log2 : Int) - (den.log2 : Int)
  -- num / den lies in (2^(l-1), 2^(l+1))
  let ge : Bool := if 0 ≤ l then decide (den * 2 ^ l.toNat ≤ num) else decide (den ≤ num * 2 ^ (-l).toNat)
  if ge then l else l - 1

/-- num / den · 2^s rounded to an integer, to nearest with ties to even, and whether it was inexact. -/
def roundScaled (num den : Nat) (s : Int) : Nat × Bool :=
  let n := if 0 ≤ s then num * 2 ^ s.toNat else num
  let d := if 0 ≤ s then den else den * 2 ^ (-s).toNat
  let q := n / d
  let r := n % d
  let up := decide (d < 2 * r) || (decide (2 * r = d) && q % 2 == 1)
  (if up then q + 1 else q, r != 0)

/-- What one operation delivers: the value and the IEEE conditions the sticky counters count (R176). -/
structure Rnd where
  v : FVal
  invalid : Bool := false
  overflow : Bool := false
  underflow : Bool := false
  deriving DecidableEq, Repr

/-- The value (-1)^neg · num/den · 2^e rounded to a format, to nearest with ties to even (R71). -/
def roundQ (f : Fmt) (neg : Bool) (num den : Nat) (e : Int) : Rnd :=
  if num == 0 then ⟨.fin neg 0 0, false, false, false⟩
  else
    let l := log2Q num den + e
    -- below half of the smallest subnormal, or above every finite number: decided without forming the quotient
    if l + 2 ≤ f.ulpMin then ⟨.fin neg 0 0, false, false, true⟩
    else if (f.bias : Int) < l then ⟨.inf neg, false, true, false⟩
    else
    let u : Int := max f.ulpMin (l - ((f.prec : Int) - 1))
    let (q, inexact) := roundScaled num den (e - u)
    if q == 0 then ⟨.fin neg 0 0, false, false, true⟩
    else if (f.bias : Int) < (q.log2 : Int) + u then ⟨.inf neg, false, true, false⟩
    else ⟨.fin neg q u, false, false, inexact && decide (q < 2 ^ (f.prec - 1))⟩

/-- A dyadic rounded to a format; an exact zero takes the sign given. -/
def roundDy (f : Fmt) (x : Dy) (zeroNeg : Bool) : Rnd :=
  if x.m == 0 then ⟨.fin zeroNeg 0 0, false, false, false⟩
  else roundQ f (decide (x.m < 0)) x.m.natAbs 1 x.e

/-- A value converted to a narrower or wider format (R71). -/
def convert (f : Fmt) : FVal → Rnd
  | .nan => ⟨.nan, false, false, false⟩
  | .inf s => ⟨.inf s, false, false, false⟩
  | .fin s n e => roundQ f s n 1 e

/-- The value a bit pattern of a format stands for (R71, R72). -/
def decodeF (f : Fmt) (w : Nat) : FVal :=
  let mb := f.prec - 1
  let m := bits w 0 mb
  let ex := bits w mb f.ebits
  let s := bit w (mb + f.ebits)
  if ex == 2 ^ f.ebits - 1 then (if m == 0 then .inf s else .nan)
  else if ex == 0 then .fin s m f.ulpMin
  else .fin s (m + 2 ^ mb) ((ex : Int) - 1 + f.ulpMin)

/-- The bit pattern of a value that a format holds exactly; NaN takes the canonical quiet pattern (R72). -/
def encodeF (f : Fmt) (v : FVal) : Nat :=
  let mb := f.prec - 1
  let sbit (s : Bool) : Nat := if s then 2 ^ (mb + f.ebits) else 0
  match v with
  | .nan => (2 ^ f.ebits - 1) * 2 ^ mb + 2 ^ (mb - 1)
  | .inf s => sbit s + (2 ^ f.ebits - 1) * 2 ^ mb
  | .fin s n e =>
    if n == 0 then sbit s
    else
      -- n · 2^e = k · 2^ulpMin with k an integer, because the format holds the value
      let d := e - f.ulpMin
      let k := if 0 ≤ d then n * 2 ^ d.toNat else n / 2 ^ (-d).toNat
      if k < 2 ^ f.prec then
        -- subnormal, or normal in the lowest binade
        sbit s + k
      else
        let x := k.log2 - mb
        sbit s + (x + 1) * 2 ^ mb + (k / 2 ^ x - 2 ^ mb)

/-- A comparison of two numbers neither of which is NaN, with -0 equal to +0. -/
def FVal.lt (a b : FVal) : Bool :=
  match a, b with
  | .nan, _ => false
  | _, .nan => false
  | .inf s, .inf t => s && !t
  | .inf s, .fin _ _ _ => s
  | .fin _ _ _, .inf t => !t
  | a, b => Dy.lt a.dy b.dy

/-- a · b + c with one rounding (IEEE 754-2019 fusedMultiplyAdd; R163, R164). DESIGN CHOICE, UNSAFE (R176, log 66): a NaN
scalar among the operands is taken as an element operand is, so its NaN result counts in no INVALID. -/
def fma (f : Fmt) (a b c : FVal) : Rnd :=
  if a.isNaN || b.isNaN || c.isNaN then ⟨.nan, false, false, false⟩
  else
    let ps := xor a.sign b.sign
    if (a.isInf && b.isZero) || (a.isZero && b.isInf) then ⟨.nan, true, false, false⟩
    else if a.isInf || b.isInf then
      match c with
      | .inf s => if s == ps then ⟨.inf ps, false, false, false⟩ else ⟨.nan, true, false, false⟩
      | _ => ⟨.inf ps, false, false, false⟩
    else
      match c with
      | .inf s => ⟨.inf s, false, false, false⟩
      | _ => roundDy f (Dy.add (Dy.mul a.dy b.dy) c.dy) (ps && c.sign)

/-- a + b with one rounding. -/
def fadd (f : Fmt) (a b : FVal) : Rnd := fma f a fone b

/-- a - b with one rounding. -/
def fsub (f : Fmt) (a b : FVal) : Rnd := fma f a fone b.neg

/-- a · b with one rounding. -/
def fmul (f : Fmt) (a b : FVal) : Rnd :=
  if a.isNaN || b.isNaN then ⟨.nan, false, false, false⟩
  else
    let ps := xor a.sign b.sign
    if (a.isInf && b.isZero) || (a.isZero && b.isInf) then ⟨.nan, true, false, false⟩
    else if a.isInf || b.isInf then ⟨.inf ps, false, false, false⟩
    else roundDy f (Dy.mul a.dy b.dy) ps

/-- a / b with one rounding (R178, R285). -/
def fdiv (f : Fmt) (a b : FVal) : Rnd :=
  let s := xor a.sign b.sign
  match a, b with
  | .nan, _ => ⟨.nan, false, false, false⟩
  | _, .nan => ⟨.nan, false, false, false⟩
  | .inf _, .inf _ => ⟨.nan, true, false, false⟩
  | .inf _, .fin _ _ _ => ⟨.inf s, false, false, false⟩
  | .fin _ _ _, .inf _ => ⟨.fin s 0 0, false, false, false⟩
  | .fin _ n e, .fin _ m g =>
    if m == 0 then (if n == 0 then ⟨.nan, true, false, false⟩ else ⟨.inf s, false, false, false⟩)
    else roundQ f s n m (e - g)

/-- x · 2^k, as IEEE 754-2019 scaleB (R162). -/
def scaleB (f : Fmt) (x : FVal) (k : Int) : Rnd :=
  match x with
  | .fin s n e => roundQ f s n 1 (e + k)
  | v => ⟨v, false, false, false⟩

/-- A zero result is +0 whatever its sign: every accumulator addition and output conversion of the array (R104). -/
def plusZero : FVal → FVal
  | .fin _ 0 _ => fzero
  | v => v

/-- The accumulator addition of R104. -/
def accAdd (f : Fmt) (a b : FVal) : FVal := plusZero (fadd f a b).v

/-- MAX of R170: -0 is below +0, and any NaN gives NaN. -/
def fmax (a b : FVal) : FVal :=
  if a.isNaN || b.isNaN then .nan
  else if FVal.lt a b then b
  else if FVal.lt b a then a
  else if a.isZero && b.isZero then .fin (a.sign && b.sign) 0 0
  else a

/-- MIN of R170. -/
def fmin (a b : FVal) : FVal :=
  if a.isNaN || b.isNaN then .nan
  else if FVal.lt a b then a
  else if FVal.lt b a then b
  else if a.isZero && b.isZero then .fin (a.sign || b.sign) 0 0
  else a

/-- The tree of R105 over a non-empty list: level by level, neighbours pair and a last value without a partner passes on.
`fuel` bounds the levels; the length of the list suffices. -/
def pairLevel {α : Type} (op : α → α → α) : List α → List α
  | a :: b :: xs => op a b :: pairLevel op xs
  | xs => xs

def treeFold {α : Type} (op : α → α → α) : (fuel : Nat) → List α → Option α
  | _, [] => none
  | _, [x] => some x
  | 0, _ => none
  | fuel + 1, xs => treeFold op fuel (pairLevel op xs)

end Sys2Proof.Machine
end

