-- ==== Sys2Proof/Machine/Kuxa.lean ====
section
/-! DEFINITION. The Kuxa number formats (R70 to R92): codes, values, block layout, the encoders and the conversions. -/

namespace Sys2Proof.Machine

/-- An exact real value as an encoder or a converter sees it (R83): a dyadic from an IEEE format or an exact sum, or a
rational power of two from a log code. `lin` holds n > 0. -/
inductive XVal where
  | nan
  | inf (neg : Bool)
  | zero
  | lin (neg : Bool) (n : Nat) (e : Int)   -- (-1)^neg · n · 2^e
  | pow (neg : Bool) (k : Int) (d : Nat)   -- (-1)^neg · 2^(k/d)
  deriving DecidableEq, Repr

def XVal.ofF : FVal → XVal
  | .nan => .nan
  | .inf s => .inf s
  | .fin s n e => if n == 0 then .zero else .lin s n e

def XVal.ofDy (x : Dy) : XVal := if x.m == 0 then .zero else .lin (decide (x.m < 0)) x.m.natAbs x.e

def XVal.neg : XVal → Bool
  | .inf s => s
  | .lin s _ _ => s
  | .pow s _ _ => s
  | _ => false

def XVal.isFinite : XVal → Bool
  | .lin _ _ _ => true
  | .pow _ _ _ => true
  | _ => false

def XVal.isNaN : XVal → Bool
  | .nan => true
  | _ => false

def XVal.isInf : XVal → Bool
  | .inf _ => true
  | _ => false

/-- x · 2^k. -/
def XVal.scale (k : Int) : XVal → XVal
  | .lin s n e => .lin s n (e + k)
  | .pow s j d => .pow s (j + k * d) d
  | v => v

/-- The integer nearest to off + q · log2|x|, a tie going to the even integer (R84). For a dyadic the logarithm is an
integer or irrational, so 2q · log2|x| has an exact floor and no tie arises. -/
def nearLog (q : Nat) (off : Int) : XVal → Int
  | .lin _ n e =>
    let twice : Int := ((n ^ (2 * q)).log2 : Int) + 2 * (q : Int) * e
    off + (twice + 1) / 2
  | .pow _ k d => nearEven (off * d + q * k) d
  | _ => 0

/-! ## Stochastic rounding: floor(2^24 · log2 x) -/

/-- One binary digit of a logarithm: y in [1, 2) held as lo · 2^-p and hi · 2^-p, squared; the digit of each bound, and
the bounds brought back into [1, 2). -/
def logDigit (p : Nat) (lo hi : Nat) : Bool × Bool × Nat × Nat :=
  let l2 := lo * lo / 2 ^ p
  let h2 := hi * hi / 2 ^ p + 1
  let dl := decide (2 ^ (p + 1) ≤ l2)
  let dh := decide (2 ^ (p + 1) ≤ h2)
  (dl, dh, if dl then l2 / 2 else l2, if dl then h2 / 2 + 1 else h2)

/-- The next `n` binary digits below the point of a logarithm; none when the bounds disagree on a digit. -/
def logDigits (p : Nat) : (n acc lo hi : Nat) → Option Nat
  | 0, acc, _, _ => some acc
  | n + 1, acc, lo, hi =>
    let (dl, dh, lo', hi') := logDigit p lo hi
    if dl == dh then logDigits p n (2 * acc + b2n dl) lo' hi' else none

/-- n squared k times: n^(2^k). -/
def squares : (k n : Nat) → Nat
  | 0, n => n
  | k + 1, n => squares k (n * n)

/-- floor(2^24 · log2 |x|) of R91, exact. The digits come from bounds 2^-192 apart, and where these leave a digit open, from
the integer power itself. -/
def floorLog24 : XVal → Int
  | .lin _ n e =>
    let l := n.log2
    let y := n * 2 ^ 192 / 2 ^ l
    let fracBits := if n == 2 ^ l then some 0 else logDigits 192 24 0 y (y + 1)
    let t : Int := match fracBits with
      | some d => (l : Int) * 2 ^ 24 + d
      | none => ((squares 24 n).log2 : Int)
    t + e * 2 ^ 24
  | .pow _ k d => (k * 2 ^ 24) / (d : Int)
  | _ => 0

/-! ## Powers of two read as IEEE numbers (R79) -/

/-- The largest m below 2^(i+1) with m^d ≤ t, from the bits i downward, above the bits found. -/
def rootBits (d t : Nat) : (i acc : Nat) → Nat
  | 0, acc => acc
  | i + 1, acc =>
    let a := acc + 2 ^ i
    if a ^ d ≤ t then rootBits d t i a else rootBits d t i acc

/-- 2^(k/d) correctly rounded to a format (R79). The value is irrational unless d divides k, so no tie arises. -/
def roundPow (f : Fmt) (neg : Bool) (k : Int) (d : Nat) : FVal :=
  let i := k / (d : Int)
  let r := (k % (d : Int)).toNat
  if r == 0 then (roundQ f neg 1 1 i).v
  else if (f.bias : Int) < i then .inf neg
  else if i + 2 ≤ f.ulpMin then .fin neg 0 0
  else
    let u : Int := max f.ulpMin (i - ((f.prec : Int) - 1))
    let s := i - u + 1
    -- floor(2^(r/d) · 2^s), one bit below the last place; s is 0 or more here
    let t := if s < 0 then 0 else rootBits d (2 ^ (r + d * s.toNat)) (s.toNat + 1) 0
    let q := (t + 1) / 2
    if q == 0 then .fin neg 0 0
    else if (f.bias : Int) < (q.log2 : Int) + u then .inf neg
    else .fin neg q u

/-- An exact value converted to an IEEE format (R71, R79). -/
def XVal.toF (f : Fmt) : XVal → FVal
  | .nan => .nan
  | .inf s => .inf s
  | .zero => fzero
  | .lin s n e => (roundQ f s n 1 e).v
  | .pow s k d => roundPow f s k d

/-! ## Formats -/

/-- The block formats (R73, R74). -/
inductive Blk where
  | kx4 | kx6 | kx8
  deriving DecidableEq, Repr

/-- q of R74. -/
def Blk.q : Blk → Nat
  | .kx4 => 2
  | .kx6 => 4
  | .kx8 => 8

/-- M of R74, the largest finite magnitude. -/
def Blk.big : Blk → Nat
  | .kx4 => 7
  | .kx6 => 30
  | .kx8 => 126

/-- Code width in bits. -/
def Blk.width : Blk → Nat
  | .kx4 => 4
  | .kx6 => 6
  | .kx8 => 8

/-- Bytes of a block of 32 codes (R80). -/
def Blk.bytes (b : Blk) : Nat := 4 * b.width

/-- A code from its sign and magnitude (R74). -/
def Blk.code (b : Blk) (s : Bool) (m : Nat) : Nat := b2n s * 2 ^ (b.width - 1) + m

/-- The value of an element code under scale byte `sc` (R73 to R77). -/
def Blk.value (b : Blk) (sc code : Nat) : XVal :=
  if sc == 0 then .zero
  else if sc == 0xFF then .nan
  else
    let m := bits code 0 (b.width - 1)
    let s := bit code (b.width - 1)
    if m == 0 then (if s then .nan else .zero)
    else if m == b.big + 1 then .inf s
    else .pow s ((b.q : Int) * ((sc : Int) - 127) + m - b.big) b.q

/-- The value of a KX16 code (R78). -/
def kx16Value (code : Nat) : XVal :=
  let l := bits code 0 15
  let s := bit code 15
  if l == 0 then (if s then .nan else .zero)
  else if l == 0x7FFF then .inf s
  else .pow s ((l : Int) - 16384) 512

/-- What an encoder delivers for one value: the code and the counts of R89, R90. -/
structure Enc where
  code : Nat
  zeroed : Nat := 0
  saturated : Nat := 0
  deriving DecidableEq, Repr

/-- A candidate L of KX16 as R90 treats it. -/
def kx16Cand (sat s : Bool) (l : Int) : Enc :=
  if l ≤ 0 then ⟨0, 1, 0⟩
  else if 0x7FFF ≤ l then ⟨b2n s * 0x8000 + (if sat then 0x7FFE else 0x7FFF), 0, 1⟩
  else ⟨b2n s * 0x8000 + l.toNat, 0, 0⟩

/-- KX16 encoding, rounded to nearest (R90). -/
def encodeKx16 (sat : Bool) : XVal → Enc
  | .nan => ⟨0x8000, 0, 0⟩
  | .inf s => ⟨b2n s * 0x8000 + 0x7FFF, 0, 0⟩
  | .zero => ⟨0, 0, 0⟩
  | x => kx16Cand sat x.neg (nearLog 512 16384 x)

/-- Stochastic rounding to KX16 with the 15-bit r (R91). -/
def encodeKx16Stoch (sat : Bool) (r : Nat) : XVal → Enc
  | .nan => ⟨0x8000, 0, 0⟩
  | .inf s => ⟨b2n s * 0x8000 + 0x7FFF, 0, 0⟩
  | .zero => ⟨0, 0, 0⟩
  | x => kx16Cand sat x.neg ((16384 * 2 ^ 15 + floorLog24 x + (r % 2 ^ 15 : Nat)) / 2 ^ 15)

/-- The candidate magnitude of an input at block exponent 0 (R84). At exponent X it is this less q · X, because q is even. -/
def Blk.cand0 (b : Blk) (x : XVal) : Int := nearLog b.q b.big x

/-- The smallest exponent at which an input's candidate is no greater than M (R85). -/
def Blk.fitExp (b : Blk) (x : XVal) : Int := ceilDivI (b.cand0 x - b.big) b.q

/-- The block exponent X (R85), for inputs that are neither all NaN nor all zero. -/
def Blk.chooseExp (b : Blk) (xs : List XVal) : Int :=
  match (xs.filter XVal.isFinite).map b.fitExp with
  | [] => if b == .kx4 && xs.any XVal.isInf then 127 else 0
  | t :: ts => min (max (ts.foldl max t) (-126)) 127

/-- The code of one input in a block of exponent X (R86 to R88). -/
def Blk.encodeElem (b : Blk) (sat : Bool) (xe : Int) (x : XVal) : Enc :=
  match x with
  | .nan => ⟨b.code true 0, 0, 0⟩
  | .zero => ⟨b.code false 0, 0, 0⟩
  | .inf s => if b == .kx4 then ⟨b.code s 7, 0, 1⟩ else ⟨b.code s (b.big + 1), 0, 0⟩
  | x =>
    let m := b.cand0 x - b.q * xe
    if m < 1 then ⟨b.code false 0, 1, 0⟩
    else if (b.big : Int) < m then
      (if b == .kx4 || sat then ⟨b.code x.neg b.big, 0, 1⟩ else ⟨b.code x.neg (b.big + 1), 0, 1⟩)
    else ⟨b.code x.neg m.toNat, 0, 0⟩

/-- What encode_block of R89 delivers. -/
structure BlockEnc where
  scale : Nat
  codes : List Nat
  zeroed : Nat
  saturated : Nat
  deriving DecidableEq, Repr

/-- encode_block of R89 over the inputs of one block. -/
def encodeBlock (b : Blk) (sat : Bool) (xs : List XVal) : BlockEnc :=
  if xs.all XVal.isNaN then ⟨0xFF, xs.map fun _ => b.code true 0, 0, 0⟩
  else if xs.all (· == .zero) then ⟨0, xs.map fun _ => b.code false 0, 0, 0⟩
  else
    let xe := b.chooseExp xs
    let es := xs.map (b.encodeElem sat xe)
    ⟨(xe + 127).toNat, es.map Enc.code, (es.map Enc.zeroed).sum, (es.map Enc.saturated).sum⟩

/-! ## Layout of codes (R80) -/

/-- The codes of one block as bytes: element i at bits [w·i + w - 1 : w·i] of the block's value, least significant byte
first, which is R80's placement for each width. -/
def packCodes (w : Nat) : List Nat → Nat
  | [] => 0
  | c :: cs => c % 2 ^ w + 2 ^ w * packCodes w cs

def Blk.pack (b : Blk) (codes : List Nat) : List Byte := leBytes b.bytes (packCodes b.width codes)

/-- Element i of the bytes of one block (R80). -/
def Blk.unpack (b : Blk) (block : List Byte) (i : Nat) : Nat := bits (ofLE block) (b.width * i) b.width

/-- Bytes of a group: a scale line and 32 blocks (R81). -/
def Blk.group (b : Blk) : Nat := 32 + 32 * b.bytes

/-- Where block `n` of a block-scaled tensor lies, from its base: its scale byte and its codes (R81). -/
def Blk.place (b : Blk) (n : Nat) : Nat × Nat :=
  (n / 32 * b.group + n % 32, n / 32 * b.group + 32 + n % 32 * b.bytes)

end Sys2Proof.Machine
end

