-- ==== Sys2Proof/Machine/LogArith.lean ====
section
/-! DEFINITION. Logarithmic products and pocketed sums (R93 to R108, R135) and the row statistics of the drain (R139 to R143):
the arithmetic of one output of the stitching array, with no state. -/

namespace Sys2Proof.Machine

/-- Accumulation modes (R116). -/
inductive AMode where
  | wide | narrow | welt
  deriving DecidableEq, Repr

/-- Array operand formats (R116). -/
inductive AFmt where
  | kx4 | kx6 | kx8 | kx16 | b32
  deriving DecidableEq, Repr

def AFmt.blk : AFmt → Option Blk
  | .kx4 => some .kx4
  | .kx6 => some .kx6
  | .kx8 => some .kx8
  | _ => none

/-- T[t] of R97: the integer nearest to 4096 · 2^(t/512). -/
def tableT : List Nat :=
  [4096, 4102, 4107, 4113, 4118, 4124, 4129, 4135, 4141, 4146, 4152, 4157, 4163, 4169, 4174, 4180,
   4186, 4191, 4197, 4203, 4208, 4214, 4220, 4226, 4231, 4237, 4243, 4248, 4254, 4260, 4266, 4272,
   4277, 4283, 4289, 4295, 4301, 4306, 4312, 4318, 4324, 4330, 4336, 4342, 4347, 4353, 4359, 4365,
   4371, 4377, 4383, 4389, 4395, 4401, 4407, 4413, 4419, 4425, 4431, 4437, 4443, 4449, 4455, 4461]

/-- W[t] of R97: the integer nearest to 2^25 · (2^(t/512) - T[t]/4096). -/
def tableW : List Int :=
  [0, -3695, 863, -2709, 1973, -1475, 3331, 6, -3256, 1736, -1402, 3714, 701, -2250, 3054, 229,
   -2534, 2959, 322, -2252, 3429, 982, -1403, -3723, 2211, 17, -2113, 4012, 2009, 70, -1805, -3616,
   2830, 1147, -471, -2025, -3515, 3253, 1892, 597, -634, -1799, -2900, -3936, 3286, 2381, 1541, 767,
   58, -585, -1163, -1674, -2120, -2500, -2813, -3061, -3242, -3357, -3406, -3388, -3303, -3152, -2933, -2648]

/-- C_k of R98 in units of 2^-39. -/
def tableC : List Nat :=
  [549755813888, 599512966123, 653773525390, 712945084849, 777472127994, 847839367509, 924575386327, 1008256608221]

/-- The combinations of R93, lining passes (KX16 NARROW) left apart. -/
def combOk (f : AFmt) (m : AMode) : Bool :=
  match f, m with
  | .kx4, .wide | .kx6, .wide | .kx6, .narrow | .kx8, .wide | .kx8, .narrow | .kx16, .wide | .b32, .welt => true
  | _, _ => false

/-- Pockets per output, q of R93. -/
def pockets : AFmt → Nat
  | .kx4 => 2
  | .kx6 => 4
  | _ => 8

/-- Group size in K indices, G of R93. -/
def groupSize : AFmt → Nat
  | .kx4 => 16
  | .kx6 | .kx8 => 8
  | .kx16 | .b32 => 4

/-- Pocket significand in bits (R99). -/
def pocketBits : AMode → Nat
  | .narrow => 24
  | _ => 48

/-- Rounding to `p` significant bits, to nearest with ties to even; the exponent range is never left (R99, R102). -/
def roundSig (p : Nat) (x : Dy) : Dy :=
  let n := x.m.natAbs
  let l := n.log2 + 1
  if l ≤ p then x
  else
    let k := l - p
    let q := nearEven n (2 ^ k)
    ⟨if x.m < 0 then -q else q, x.e + k⟩

/-- One product as R95 and R96 form it. -/
inductive LProd where
  | none
  | nan
  | inf (neg : Bool)
  | term (j : Nat) (v : Dy)
  deriving DecidableEq, Repr

/-- The special cases of R96, the finite case left to the caller. -/
def prodSpecial (a b : XVal) : Option LProd :=
  match a, b with
  | .zero, _ | _, .zero => some .none
  | .nan, _ | _, .nan => some .nan
  | .inf s, b => some (.inf (xor s b.neg))
  | a, .inf t => some (.inf (xor a.neg t))
  | _, _ => none

/-- The logarithm of a log-code value in units of 1/d. -/
def XVal.logk : XVal → Int
  | .pow _ k _ => k
  | _ => 0

/-- The term of a finite product of two log codes (R95). `welt` selects the WELT table. -/
def termOf (f : AFmt) (welt : Bool) (a b : XVal) : LProd :=
  let k := a.logk + b.logk
  let s : Int := if xor a.neg b.neg then -1 else 1
  match f.blk with
  | some b =>
    .term (k % (b.q : Int)).toNat ⟨s, k / (b.q : Int)⟩
  | .none =>
    let e := k / 512
    let fr := (k % 512).toNat
    let t := fr % 64
    let tt : Int := (tableT.getD t 0 : Nat)
    .term (fr / 64) (if welt then ⟨s * (8192 * tt + tableW.getD t 0), e - 25⟩ else ⟨s * tt, e - 12⟩)

def prodOf (f : AFmt) (welt : Bool) (a b : XVal) : LProd :=
  (prodSpecial a b).getD (termOf f welt a b)

/-- Pockets with their block registers and flags as a pass runs down the column (R99, R100). -/
structure Pass where
  p : List Dy
  blk : List Dy
  nan : Bool := false
  pinf : Bool := false
  ninf : Bool := false
  deriving DecidableEq, Repr

/-- The exact sum of the finite terms of a group in pocket j. -/
def groupSum (ps : List LProd) (j : Nat) : Dy :=
  Dy.sum (ps.filterMap fun x => match x with
    | .term i v => if i == j then some v else .none
    | _ => .none)

/-- One group enters its pockets (R100); `last` says the group is the last of its block. -/
def Pass.group (f : AFmt) (m : AMode) (last : Bool) (ps : List LProd) (s : Pass) : Pass :=
  let gs := (upTo (pockets f)).map (groupSum ps)
  let s := { s with
    nan := s.nan || ps.any (· == LProd.nan)
    pinf := s.pinf || ps.any (· == LProd.inf false)
    ninf := s.ninf || ps.any (· == LProd.inf true) }
  if m == .wide && f.blk.isSome then
    let blk := List.zipWith Dy.add s.blk gs
    if last then
      { s with p := List.zipWith (fun a b => roundSig (pocketBits m) (Dy.add a b)) s.p blk
               blk := s.blk.map fun _ => Dy.zero }
    else { s with blk := blk }
  else
    { s with p := List.zipWith (fun a b => roundSig (pocketBits m) (Dy.add a b)) s.p gs }

/-- The drain combination (R102): the pass value, with a 64-bit significand. -/
def Pass.drain (f : AFmt) (s : Pass) : FVal :=
  if s.nan || (s.pinf && s.ninf) then .nan
  else if s.pinf then .inf false
  else if s.ninf then .inf true
  else
    let step := 8 / pockets f
    let terms := (upTo (pockets f)).map fun j =>
      Dy.mul (s.p.getD j Dy.zero) ⟨(tableC.getD (step * j) 0 : Nat), -39⟩
    let d := roundSig 64 (Dy.sum terms)
    if d.m == 0 then fzero else .fin (decide (d.m < 0)) d.m.natAbs d.e

/-- One operand element as the cells hold it: its value, and for WELT the pair (hi, lo) of R106. -/
structure Opd where
  x : XVal
  lo : XVal := .zero
  deriving DecidableEq, Repr

/-- The products of one K index in order (R95, R107). -/
def kProds (f : AFmt) (a b : Opd) : List LProd :=
  if f == .b32 then [prodOf f true a.x b.x, prodOf f true a.x b.lo, prodOf f true a.lo b.x]
  else [prodOf f false a.x b.x]

/-- Groups of one pass in ascending K, each with the flag that it ends its block of 32 (R94). -/
def runGroups (f : AFmt) (m : AMode) : (i : Nat) → List (List LProd) → Pass → Pass
  | _, [], s => s
  | i, g :: gs, s =>
    let last := ((i + 1) * groupSize f) % 32 == 0
    runGroups f m (i + 1) gs (s.group f m last g)

/-- The pass value of one output (R94 to R102) from its 128 operand pairs, already zero beyond KVALID. -/
def passValue (f : AFmt) (m : AMode) (a b : List Opd) : FVal :=
  let ks := List.zipWith (kProds f) a b
  let groups := (chunks (groupSize f) 128 ks).map List.flatten
  let z := (upTo (pockets f)).map fun _ => Dy.zero
  (runGroups f m 0 groups { p := z, blk := z }).drain f

/-! ## Accumulators (R104, R107) -/

/-- A slot accumulator: one value, or the pair of WELT mode. -/
structure Acc where
  h : FVal := fzero
  w : FVal := fzero
  deriving DecidableEq, Repr

def AMode.fmt : AMode → Fmt
  | .narrow => b16
  | _ => b32

/-- welt_add of R107: `d` a pass value, or the head of a tree partner with its welt `dw`. -/
def weltAdd (a : Acc) (d dw : FVal) : Acc :=
  if !(a.h.isFinite && a.w.isFinite && d.isFinite && dw.isFinite) then
    ⟨plusZero (fadd b32 a.h d).v, fzero⟩
  else
    let x := Dy.sum [a.h.dy, a.w.dy, d.dy, dw.dy]
    let h2 := plusZero (roundDy b32 x false).v
    if h2.isFinite then ⟨h2, plusZero (roundDy b32 (Dy.add x h2.dy.neg) false).v⟩ else ⟨h2, fzero⟩

/-- A pass value, or the value of a tree partner, added into an accumulator (R104, R105, R107). -/
def Acc.add (m : AMode) (a : Acc) (d : FVal) (dw : FVal := fzero) : Acc :=
  match m with
  | .welt => weltAdd a d dw
  | m => ⟨accAdd m.fmt a.h d, fzero⟩

/-! ## Exact values beside irrational ones: the WELT split and the reference columns -/

/-- n and e with n · 2^e ≤ 2^(k/d) < (n + 1) · 2^e, n of p + 1 bits. -/
def powApprox (p : Nat) (k : Int) (d : Nat) : Nat × Int :=
  let i := k / (d : Int)
  let r := (k % (d : Int)).toNat
  (rootBits d (2 ^ (r + d * p)) (p + 1) 0, i - p)

/-- The first precision at which both ends of the bounds give one result; the last precision's lower end otherwise.
Two different results at 1024 bits do not arise for the operands of R106 and R108. -/
def agree {α : Type} [DecidableEq α] (g : Nat → α × α) : α :=
  let a := g 96
  if a.1 = a.2 then a.1
  else
    let b := g 320
    if b.1 = b.2 then b.1 else (g 1024).1

/-- The split of a binary32 element into hi and lo (R106), with the counts of both encodings. -/
def weltSplit (sat : Bool) (x : FVal) : Opd × Nat × Nat :=
  let e := encodeKx16 sat (XVal.ofF x)
  let hi := kx16Value e.code
  match x, hi with
  | .fin _ _ _, .pow s k d =>
    if k % (d : Int) == 0 then
      let diff := Dy.add x.dy ⟨if s then 1 else -1, k / (d : Int)⟩
      let l := encodeKx16 sat (XVal.ofDy diff)
      (⟨hi, kx16Value l.code⟩, e.zeroed + l.zeroed, e.saturated + l.saturated)
    else
      let l := agree fun p =>
        let (n, g) := powApprox p k d
        let at_ (n : Nat) := encodeKx16 sat (XVal.ofDy (Dy.add x.dy ⟨if s then (n : Int) else -(n : Int), g⟩))
        (at_ n, at_ (n + 1))
      (⟨hi, kx16Value l.code⟩, e.zeroed + l.zeroed, e.saturated + l.saturated)
  | _, _ => (⟨hi, .zero⟩, e.zeroed, e.saturated)

/-- acc + (-1)^s · 2^(k/d) with one rounding (R108). -/
def addPow (f : Fmt) (acc : FVal) (s : Bool) (k : Int) (d : Nat) : FVal :=
  if !acc.isFinite then acc
  else if k % (d : Int) == 0 then plusZero (roundDy f (Dy.add acc.dy ⟨if s then -1 else 1, k / (d : Int)⟩) false).v
  else
    plusZero (agree fun p =>
      let (n, g) := powApprox p k d
      let at_ (n : Nat) := (roundDy f (Dy.add acc.dy ⟨if s then -(n : Int) else n, g⟩) false).v
      (at_ n, at_ (n + 1)))

/-- One product added to a reference accumulator as its exact value (R108, steps 2 and 3). -/
def refAdd (acc : FVal) (a b : XVal) : FVal :=
  match prodSpecial a b with
  | some .none => acc
  | some .nan => .nan
  | some (.inf s) => accAdd b32 acc (.inf s)
  | _ =>
    let s := xor a.neg b.neg
    match a, b with
    | .lin _ n e, .lin _ m g => accAdd b32 acc (.fin s (n * m) (e + g))
    | .pow _ k d, .pow _ j _ => addPow b32 acc s (k + j) d
    | _, _ => acc

/-- The products of one pass added in ascending K to a binary32 accumulator (R108). In WELT the operands are the binary32 elements. -/
def refPass (acc : FVal) : List XVal → List XVal → FVal
  | a :: as, b :: bs => refPass (refAdd acc a b) as bs
  | _, _ => acc

/-! ## Row statistics (R139 to R143) -/

/-- C_E of R141: the binary32 nearest to log2 e. -/
def logE32 : FVal := decodeF b32 0x3FB8AA3B

/-- The integer nearest to off + 512 · x for a dyadic x, ties to even. -/
def near512 (off : Int) (x : Dy) : Int :=
  if 0 ≤ x.e then off + 512 * shl x.m x.e
  else nearEven (off * (2 ^ (-x.e).toNat : Nat) + 512 * x.m) (2 ^ (-x.e).toNat)

/-- ex of R141, continued above zero as R178 says. -/
def exf (d : FVal) : FVal :=
  match d with
  | .nan => .nan
  | .inf true => fzero
  | .inf false => .inf false
  | d =>
    let l := near512 16384 (Dy.mul logE32.dy d.dy)
    if l ≤ 0 then fzero
    else if 0x7FFF ≤ l then .inf false
    else roundPow b32 false (l - 16384) 512

/-- Row states (R143). -/
inductive RowState where
  | finite | empty | inf | nan
  deriving DecidableEq, Repr

def RowState.code : RowState → Nat
  | .finite => 0
  | .empty => 1
  | .inf => 2
  | .nan => 3

def RowState.ofCode (n : Nat) : RowState :=
  match n % 4 with
  | 0 => .finite
  | 1 => .empty
  | 2 => .inf
  | _ => .nan

/-- One row of a statistics run (R141). -/
structure StatRow where
  state : RowState := .empty
  max : FVal := .inf true
  sum : FVal := fzero
  count : Nat := 0
  deriving DecidableEq, Repr

/-- A row in state NAN with its count kept (R139). -/
def StatRow.toNaN (r : StatRow) : StatRow := { r with state := .nan, max := .nan, sum := .nan }

/-- stat_tile of R141 for one row: the live values in ascending column order. -/
def StatRow.tile (live : List FVal) (r : StatRow) : StatRow :=
  let r := { r with count := r.count + live.length }
  if r.state == .nan then r
  else if live.any FVal.isNaN then r.toNaN
  else
    let nInf := (live.filter (· == .inf false)).length
    if 0 < nInf then
      let base := if r.state == .inf then r.sum else fzero
      { r with state := .inf, max := .inf false, sum := (fadd b32 base (.fin false nInf 0)).v }
    else if r.state == .inf then r
    else
      match live.filter FVal.isFinite with
      | [] => r
      | y :: ys =>
        let t := ys.foldl (fun a b => if FVal.lt a b then b else a) y
        let r :=
          if r.state == .empty then { r with state := .finite, max := t, sum := fzero }
          else if FVal.lt r.max t then
            { r with sum := (fmul b32 r.sum (exf (fsub b32 r.max t).v)).v, max := t }
          else r
        { r with sum := (y :: ys).foldl (fun s y => (fadd b32 s (exf (fsub b32 y r.max).v)).v) r.sum }

/-- The 16-byte statistics record of a row (R143). -/
def StatRow.record (r : StatRow) : List Byte :=
  let mx := match r.state with
    | .empty => 0xFF800000
    | .inf => 0x7F800000
    | .nan => 0x7FC00000
    | .finite => encodeF b32 r.max
  let sm := match r.state with
    | .empty => 0
    | .nan => 0x7FC00000
    | _ => encodeF b32 r.sum
  leBytes 4 mx ++ leBytes 4 sm ++ leBytes 4 r.count ++ leBytes 4 r.state.code

end Sys2Proof.Machine
end

