-- ==== Sys2Proof/Machine/ChainMath.lean ====
section
/-! DEFINITION. The element arithmetic of the lacing chain (R146 to R178): the configuration word, the scale, FMA, log,
compare, permute, statistics and reduce stages, with the counts each delivers, and with no state. -/

namespace Sys2Proof.Machine

/-! ## The configuration word (R152) -/

/-- The fields of a configuration word, as numbers; reserved codes are refused at issue (R155). -/
structure Ccw where
  wp : Bool
  src : Nat
  dst : Nat
  enScl : Bool
  enF1 : Bool
  enF2 : Bool
  enLog : Bool
  enCmp : Bool
  enPrm : Bool
  enSta : Bool
  enRed : Bool
  sclop : Nat
  f1op : Nat
  f1a : Nat
  f1b : Nat
  f1c : Nat
  f2op : Nat
  f2a : Nat
  f2b : Nat
  f2c : Nat
  logop : Nat
  cmpop : Nat
  prmop : Nat
  redop : Nat
  sat : Bool
  rnd : Bool
  cset : Nat
  racc : Bool
  rsv : Nat
  deriving DecidableEq, Repr

def Ccw.ofWord (w : Nat) : Ccw where
  wp := bit w 63
  src := bits w 60 3
  dst := bits w 57 3
  enScl := bit w 56
  enF1 := bit w 55
  enF2 := bit w 54
  enLog := bit w 53
  enCmp := bit w 52
  enPrm := bit w 51
  enSta := bit w 50
  enRed := bit w 49
  sclop := bits w 46 3
  f1op := bits w 43 3
  f1a := bits w 40 3
  f1b := bits w 37 3
  f1c := bits w 34 3
  f2op := bits w 31 3
  f2a := bits w 28 3
  f2b := bits w 25 3
  f2c := bits w 22 3
  logop := bits w 18 4
  cmpop := bits w 15 3
  prmop := bits w 12 3
  redop := bits w 9 3
  sat := bit w 8
  rnd := bit w 7
  cset := bits w 4 3
  racc := bit w 3
  rsv := bits w 0 3

/-- The working precision (R147). -/
def Ccw.fmt (c : Ccw) : Fmt := if c.wp then b64 else b32

/-- C of R149: elements a pass may take. -/
def Ccw.cap (c : Ccw) : Nat := if c.wp then 128 else 256

/-- RESERVED_CODE of R155: a reserved code in any coded field, or a nonzero reserved bit. -/
def Ccw.reserved (c : Ccw) : Bool :=
  c.dst == 7 || decide (4 ≤ c.sclop) || decide (6 ≤ c.f1op) || decide (6 ≤ c.f2op)
    || c.f1a == 7 || c.f1b == 7 || c.f1c == 7 || c.f2a == 7 || c.f2b == 7 || c.f2c == 7
    || decide (13 ≤ c.logop) || decide (6 ≤ c.cmpop) || decide (4 ≤ c.prmop) || decide (5 ≤ c.redop) || c.rsv != 0

def Ccw.isSmx (c : Ccw) : Bool := c.logop == 11 || c.logop == 12

/-- A block format behind a SRC or DST code (R153). -/
def blkOfCode : Nat → Option Blk
  | 4 => some .kx8
  | 5 => some .kx6
  | 6 => some .kx4
  | _ => none

/-- An IEEE format behind a SRC or DST code (R153). -/
def ieeeOfCode : Nat → Option Fmt
  | 0 => some b32
  | 1 => some b64
  | 2 => some b16
  | _ => none

/-- Bytes of one element of an unblocked SRC or DST code (R153). -/
def elemBytes : Nat → Nat
  | 0 => 4
  | 1 => 8
  | _ => 2

/-! ## Counters (R176) -/

/-- One chain counter set; a pass's own counts have the same shape. -/
structure LchCnt where
  invalid : Nat := 0
  divzero : Nat := 0
  overflow : Nat := 0
  underflow : Nat := 0
  nanIn : Nat := 0
  zeroed : Nat := 0
  saturated : Nat := 0
  permRange : Nat := 0
  fallback : Nat := 0
  infCount : Nat := 0
  nanCount : Nat := 0
  count : Nat := 0
  sumsq : Nat := 0    -- binary64 bits
  maxabs : Nat := 0   -- binary64 bits
  deriving DecidableEq, Repr

def LchCnt.ofRnd (r : Rnd) (c : LchCnt) : LchCnt :=
  { c with invalid := c.invalid + b2n r.invalid
           overflow := c.overflow + b2n r.overflow
           underflow := c.underflow + b2n r.underflow }

/-- Apply an element operation along a list, gathering its counts. -/
def mapRnd {α : Type} (f : α → Rnd) : List α → LchCnt → List FVal × LchCnt
  | [], c => ([], c)
  | x :: xs, c =>
    let r := f x
    let (ys, c') := mapRnd f xs (c.ofRnd r)
    (r.v :: ys, c')

/-! ## Scale and FMA (R162, R163) -/

/-- SCLOP of R162 on one element; `k0i` is K0 read as an integer. -/
def sclStage (f : Fmt) (op : Nat) (k0 k1 : FVal) (k0i : Int) (x : FVal) : Rnd :=
  match op with
  | 0 => fmul f x k0
  | 1 => fadd f x k0
  | 2 => scaleB f x k0i
  | _ => fma f x k0 k1

/-- The operand a code of R154 selects. -/
def selOperand (code : Nat) (x va vb k0 k1 : FVal) : FVal :=
  match code with
  | 0 => x
  | 1 => va
  | 2 => vb
  | 3 => k0
  | 4 => k1
  | 5 => fone
  | _ => fzero

/-- F1OP and F2OP of R163. -/
def fmaStage (f : Fmt) (op : Nat) (a b c : FVal) : Rnd :=
  match op with
  | 0 => fma f a b c
  | 1 => fma f a b c.neg
  | 2 => fma f a.neg b c
  | 3 => fmul f a b
  | 4 => fadd f a c
  | _ => fsub f a c

/-! ## The log stage (R165 to R169, R178) -/

/-- What the log stage delivers for one element. -/
structure LogOut where
  v : FVal
  invalid : Bool := false
  divzero : Bool := false
  zeroed : Nat := 0
  saturated : Nat := 0
  deriving DecidableEq, Repr

/-- A KX16 code read back as a WP value (R79). -/
def kx16ToF (f : Fmt) (code : Nat) : FVal := (kx16Value code).toF f

/-- A result code as R90 treats its candidate, counted as R169 says, with the counts of the input encodings added. -/
def logCode (f : Fmt) (sat s : Bool) (z n : Nat) (l : Int) : LogOut :=
  let e := kx16Cand sat s l
  ⟨kx16ToF f e.code, false, false, z + e.zeroed, n + e.saturated⟩

/-- The integer nearest to a dyadic, ties to even. -/
def nearDy (x : Dy) : Int := if 0 ≤ x.e then shl x.m x.e else nearEven x.m (2 ^ (-x.e).toNat)

/-- log2 e and ln 2 at the working precision (R165). -/
def logE (f : Fmt) : FVal := if f == b64 then decodeF b64 0x3FF71547652B82FE else decodeF b32 0x3FB8AA3B
def ln2 (f : Fmt) : FVal := if f == b64 then decodeF b64 0x3FE62E42FEFA39EF else decodeF b32 0x3F317218

/-- L - 16384 of an encoded finite value. -/
def XVal.l512 : XVal → Int
  | .pow _ k _ => k
  | _ => 0

/-- MUL and DIV after encoding, by the rules of R167 in order. -/
def logMulDiv (f : Fmt) (div sat : Bool) (z n : Nat) (x y : XVal) : LogOut :=
  let s := xor x.neg y.neg
  if x.isNaN || y.isNaN then ⟨.nan, false, false, z, n⟩
  else if !div && ((x == .zero && y.isInf) || (x.isInf && y == .zero)) then ⟨.nan, true, false, z, n⟩
  else if div && ((x == .zero && y == .zero) || (x.isInf && y.isInf)) then ⟨.nan, true, false, z, n⟩
  else if (!div && (x == .zero || y == .zero)) || (div && (x == .zero || y.isInf)) then ⟨fzero, false, false, z, n⟩
  else if (!div && (x.isInf || y.isInf)) || (div && x.isInf) then ⟨.inf s, false, false, z, n⟩
  else if y == .zero then ⟨.inf s, false, true, z, n⟩
  else logCode f sat s z n (16384 + x.l512 + (if div then -y.l512 else y.l512))

/-- Whether a finite value is an integer, and whether it is odd. -/
def isInteger (y : FVal) : Bool :=
  match y with
  | .fin _ n e => decide (0 ≤ e) || n % 2 ^ (-e).toNat == 0
  | _ => false

def isOddInt (y : FVal) : Bool :=
  match y with
  | .fin _ n e => isInteger y && (if 0 ≤ e then e == 0 && n % 2 == 1 else n / 2 ^ (-e).toNat % 2 == 1)
  | _ => false

/-- POW by the rules of R168 in order; x encoded, y exact. -/
def logPow (f : Fmt) (sat : Bool) (z n : Nat) (x : XVal) (y : FVal) : LogOut :=
  if y.isZero then ⟨fone, false, false, z, n⟩
  else if x.isNaN || y.isNaN then ⟨.nan, false, false, z, n⟩
  else if y.isInf then
    -- |x| compared with 1
    let above := x.isInf || decide (0 < x.l512)
    let one := x.isFinite && x.l512 == 0
    if one then ⟨fone, false, false, z, n⟩
    else if above != y.sign then ⟨.inf false, false, false, z, n⟩
    else ⟨fzero, false, false, z, n⟩
  else if x == .zero then
    (if y.sign then ⟨.inf false, false, true, z, n⟩ else ⟨fzero, false, false, z, n⟩)
  else if x.isInf then
    (if y.sign then ⟨fzero, false, false, z, n⟩ else ⟨.inf (x.neg && isOddInt y), false, false, z, n⟩)
  else if x.neg && !isInteger y then ⟨.nan, true, false, z, n⟩
  else logCode f sat (x.neg && isOddInt y) z n (16384 + nearDy (Dy.mul y.dy ⟨x.l512, 0⟩))

/-- RECIP, SQRT, RSQRT, LOG2 and LN on the encoded input (R165, R166). -/
def logOne (f : Fmt) (op : Nat) (sat : Bool) (z n : Nat) (x : XVal) : LogOut :=
  let plain (v : FVal) : LogOut := ⟨v, false, false, z, n⟩
  let inv : LogOut := ⟨.nan, true, false, z, n⟩
  match x with
  | .nan => plain .nan
  | .zero =>
    match op with
    | 4 => plain fzero
    | 3 | 5 => ⟨.inf false, false, true, z, n⟩
    | _ => ⟨.inf true, false, true, z, n⟩
  | .inf s =>
    match op with
    | 3 => plain fzero
    | 5 => if s then inv else plain fzero
    | _ => if s then inv else plain (.inf false)
  | x =>
    let k := x.l512
    match op with
    | 3 => logCode f sat x.neg z n (16384 - k)
    | 4 => if x.neg then inv else logCode f sat false z n (16384 + nearEven k 2)
    | 5 => if x.neg then inv else logCode f sat false z n (16384 + nearEven (-k) 2)
    | 9 => if x.neg then inv else plain (roundDy f ⟨k, -9⟩ false).v
    | _ => if x.neg then inv else plain (roundDy f (Dy.mul ⟨k, -9⟩ (ln2 f).dy) false).v

/-- EXP and EXP2, which take their input exactly (R165, R166). -/
def logExp (f : Fmt) (c : FVal) (sat : Bool) (x : FVal) : LogOut :=
  match x with
  | .nan => ⟨.nan, false, false, 0, 0⟩
  | .inf s => ⟨if s then fzero else .inf false, false, false, 0, 0⟩
  | x => logCode f sat false 0 0 (near512 16384 (Dy.mul c.dy x.dy))

/-- The normalisation of R178 of one element by its row's statistics record. DESIGN CHOICE, UNSAFE (log 67): for records
that no statistics run makes, an INF row of SUM 0 counts nothing in DIVZERO, 0/0 counts in INVALID, and a NaN field of a
FINITE record counts nothing. -/
def smx (row : StatRow) (masked : Bool) (y : FVal) : LogOut :=
  match row.state with
  | .nan => ⟨.nan, !y.isNaN, false, 0, 0⟩
  | st =>
    if masked then ⟨fzero, false, false, 0, 0⟩
    else if y.isNaN then ⟨.nan, false, false, 0, 0⟩
    else
      match st, y with
      | .finite, .inf s => if s then ⟨fzero, false, false, 0, 0⟩ else ⟨.inf false, false, true, 0, 0⟩
      | .finite, y =>
        let q := fdiv b32 (exf (fsub b32 y row.max).v) row.sum
        ⟨q.v, q.invalid, q.v.isInf, 0, 0⟩
      | .inf, .inf false => ⟨(fdiv b32 fone row.sum).v, false, false, 0, 0⟩
      | _, _ => ⟨fzero, false, false, 0, 0⟩

/-- A statistics record read back from its 16 bytes (R143). -/
def StatRow.ofRecord (bs : List Byte) : StatRow where
  state := RowState.ofCode (ofLE ((bs.drop 12).take 4))
  max := decodeF b32 (ofLE (bs.take 4))
  sum := decodeF b32 (ofLE ((bs.drop 4).take 4))
  count := ofLE ((bs.drop 8).take 4)

/-- LOGOP of R165 on one element. -/
def logStage (c : Ccw) (k0 : FVal) (row : StatRow) (x va : FVal) : LogOut :=
  let f := c.fmt
  let ex := encodeKx16 c.sat (XVal.ofF x)
  let xv := kx16Value ex.code
  match c.logop with
  | 0 => ⟨kx16ToF f ex.code, false, false, ex.zeroed, ex.saturated⟩
  | 1 =>
    let ey := encodeKx16 c.sat (XVal.ofF va)
    logMulDiv f false c.sat (ex.zeroed + ey.zeroed) (ex.saturated + ey.saturated) xv (kx16Value ey.code)
  | 2 =>
    let ey := encodeKx16 c.sat (XVal.ofF va)
    logMulDiv f true c.sat (ex.zeroed + ey.zeroed) (ex.saturated + ey.saturated) xv (kx16Value ey.code)
  | 6 => logPow f c.sat ex.zeroed ex.saturated xv k0
  | 7 => logExp f (logE f) c.sat x
  | 8 => logExp f fone c.sat x
  | 11 => smx row false x
  | 12 => smx row (!va.isZero) x
  | op => logOne f op c.sat ex.zeroed ex.saturated xv

/-- The log stage along the elements; element i takes the record of row i / 128 (R178). -/
def mapLog (c : Ccw) (k0 : FVal) (rows : List StatRow) : (i : Nat) → List (FVal × FVal) → LchCnt → List FVal × LchCnt
  | _, [], n => ([], n)
  | i, (x, va) :: xs, n =>
    let r := logStage c k0 (rows.getD (i / 128) {}) x va
    let n := { n with invalid := n.invalid + b2n r.invalid
                      divzero := n.divzero + b2n r.divzero
                      zeroed := n.zeroed + r.zeroed
                      saturated := n.saturated + r.saturated }
    let (ys, n') := mapLog c k0 rows (i + 1) xs n
    (r.v :: ys, n')

/-! ## Compare and permute (R170 to R172) -/

def cmpStage (op : Nat) (k0 k1 x va vb : FVal) : FVal :=
  match op with
  | 0 => fmax x va
  | 1 => fmin x va
  | 2 => fmax x fzero
  | 3 => fmin (fmax x k0) k1
  | 4 => if va.isZero then vb else x
  | _ => x.abs

/-- One output element of the permute stage, and whether it counts in PERM_RANGE (R171, R172). -/
def prmElem (op : Nat) (xs : List FVal) (idx : List Nat) (k : Int) (i : Nat) : FVal × Nat :=
  let e := xs.length
  let pick (w : Nat) : FVal × Nat := if w < e then (xs.getD w fzero, 0) else (fzero, 1)
  match op with
  | 0 => pick (idx.getD i 0)
  | 1 => pick (e - 1 - i)
  | 2 => pick (((i : Int) + k) % (e : Int)).toNat
  | _ => if k < 0 then (fzero, 1) else pick k.toNat

/-! ## Statistics and reduce (R173, R174) -/

/-- Finite elements' squares in binary64, summed by the tree of R105, added into SUMSQ; MAXABS beside it (R173). DESIGN
CHOICE, UNSAFE (log 86): a non-finite element is left out of the sequence that the tree sums. -/
def staStage (xs : List FVal) (sumsq maxabs : FVal) : FVal × FVal :=
  let fin := xs.filter FVal.isFinite
  let sq := fin.map fun x => (fmul b64 x x).v
  let total := (treeFold (fun a b => (fadd b64 a b).v) sq.length sq).getD fzero
  ((fadd b64 sumsq total).v, fin.foldl (fun m x => fmax m x.abs) maxabs)

/-- The pairwise step of R174 with its counts. -/
def redStep (f : Fmt) (op : Nat) (a b : FVal × LchCnt) : FVal × LchCnt :=
  let n (r : Rnd) : LchCnt :=
    LchCnt.ofRnd r { a.2 with invalid := a.2.invalid + b.2.invalid
                              overflow := a.2.overflow + b.2.overflow
                              underflow := a.2.underflow + b.2.underflow }
  let r : Rnd := match op with
    | 1 => ⟨fmax a.1 b.1, false, false, false⟩
    | 2 => ⟨fmin a.1 b.1, false, false, false⟩
    | 3 => ⟨fmax a.1.abs b.1.abs, false, false, false⟩
    | _ => fadd f a.1 b.1
  (r.v, n r)

/-- What one element enters the reduction as (R174). -/
def redLeaf (f : Fmt) (op : Nat) (x : FVal) : FVal × LchCnt :=
  match op with
  | 3 => (x.abs, {})
  | 4 => let r := fmul f x x; (r.v, LchCnt.ofRnd r {})
  | _ => (x, {})

/-- The value for E = 0 (R174). -/
def redEmpty : Nat → FVal
  | 1 => .inf true
  | 2 => .inf false
  | _ => fzero

/-- The reduction of R174 over the elements, without RACC. -/
def redStage (f : Fmt) (op : Nat) (xs : List FVal) : FVal × LchCnt :=
  (treeFold (redStep f op) xs.length (xs.map (redLeaf f op))).getD (redEmpty op, {})

/-! ## All stages between unpack and pack -/

/-- What a pass reads besides its source. -/
structure ChainIn where
  va : List FVal := []
  vb : List FVal := []
  idx : List Nat := []
  k0 : Nat := 0
  k1 : Nat := 0
  rows : List StatRow := []
  sd : Nat := 0
  deriving DecidableEq, Repr

/-- What a pass delivers to its pack stage, its counts, and the value Reduce writes to Sd. -/
structure ChainOut where
  xs : List FVal
  cnt : LchCnt
  sd : Option Nat := none
  deriving DecidableEq, Repr

/-- A scalar register read as a WP value (R151). -/
def scalarF (f : Fmt) (r : Nat) : FVal := if f == b64 then decodeF b64 r else decodeF b32 (r % 2 ^ 32)

/-- Zip elements with the elements of VA and VB beside them. -/
def zip3 (va vb xs : List FVal) : List (FVal × FVal × FVal) :=
  xs.mapIdx fun i x => (x, va.getD i fzero, vb.getD i fzero)

/-- Stages 2 to 9 of R146 in order on the unpacked elements; `old` is the counter set as it stands, for SUMSQ and MAXABS. -/
def chainStages (c : Ccw) (inp : ChainIn) (old : LchCnt) (xs : List FVal) (n : LchCnt) : ChainOut :=
  let f := c.fmt
  let k0 := scalarF f inp.k0
  let k1 := scalarF f inp.k1
  let (xs, n) := if c.enScl then mapRnd (sclStage f c.sclop k0 k1 (signed64 inp.k0)) xs n else (xs, n)
  let fmaOn (op a b d : Nat) (xs : List FVal) (n : LchCnt) : List FVal × LchCnt :=
    mapRnd (fun (t : FVal × FVal × FVal) =>
      let o (code : Nat) := selOperand code t.1 t.2.1 t.2.2 k0 k1
      fmaStage f op (o a) (o b) (o d)) (zip3 inp.va inp.vb xs) n
  let (xs, n) := if c.enF1 then fmaOn c.f1op c.f1a c.f1b c.f1c xs n else (xs, n)
  let (xs, n) := if c.enF2 then fmaOn c.f2op c.f2a c.f2b c.f2c xs n else (xs, n)
  let (xs, n) := if c.enLog then
      mapLog c k0 inp.rows 0 ((zip3 inp.va inp.vb xs).map fun t => (t.1, t.2.1)) n
    else (xs, n)
  let xs := if c.enCmp then
      (zip3 inp.va inp.vb xs).map fun t => cmpStage c.cmpop k0 k1 t.1 t.2.1 t.2.2
    else xs
  let (xs, n) := if c.enPrm then
      let ys := (upTo xs.length).map (prmElem c.prmop xs inp.idx (signed64 inp.k1))
      (ys.map Prod.fst, { n with permRange := n.permRange + (ys.map Prod.snd).sum })
    else (xs, n)
  let n := if c.enSta then
      let (sq, mx) := staStage xs (decodeF b64 old.sumsq) (decodeF b64 old.maxabs)
      { n with count := n.count + xs.length
               infCount := n.infCount + (xs.filter FVal.isInf).length
               nanCount := n.nanCount + (xs.filter FVal.isNaN).length
               sumsq := encodeF b64 sq
               maxabs := encodeF b64 mx }
    else { n with sumsq := old.sumsq, maxabs := old.maxabs }
  if c.enRed then
    let (r, m) := redStage f c.redop xs
    let n := { n with invalid := n.invalid + m.invalid, overflow := n.overflow + m.overflow
                      underflow := n.underflow + m.underflow }
    if c.racc then
      if xs.isEmpty then ⟨xs, n, none⟩
      else
        let (v, m) := redStep f c.redop (scalarF f inp.sd, {}) (r, {})
        ⟨xs, { n with invalid := n.invalid + m.invalid, overflow := n.overflow + m.overflow
                      underflow := n.underflow + m.underflow }, some (encodeF f v)⟩
    else ⟨xs, n, some (encodeF f r)⟩
  else ⟨xs, n, none⟩

/-- A pass's counts added to its set, each count saturating (R176). -/
def LchCnt.merge (old n : LchCnt) : LchCnt where
  invalid := sat32 (old.invalid + n.invalid)
  divzero := sat32 (old.divzero + n.divzero)
  overflow := sat32 (old.overflow + n.overflow)
  underflow := sat32 (old.underflow + n.underflow)
  nanIn := sat32 (old.nanIn + n.nanIn)
  zeroed := sat32 (old.zeroed + n.zeroed)
  saturated := sat32 (old.saturated + n.saturated)
  permRange := sat32 (old.permRange + n.permRange)
  fallback := sat32 (old.fallback + n.fallback)
  infCount := sat32 (old.infCount + n.infCount)
  nanCount := sat32 (old.nanCount + n.nanCount)
  count := sat32 (old.count + n.count)
  sumsq := n.sumsq
  maxabs := n.maxabs

/-- The fallback threshold of R265: a threshold of zero takes no part. -/
def passesThreshold (satT zeroT saturated zeroed : Nat) : Bool :=
  (satT != 0 && decide (satT ≤ saturated)) || (zeroT != 0 && decide (zeroT ≤ zeroed))

end Sys2Proof.Machine
end

