-- ==== Sys2Proof/Machine/Types.lean ====
section
/-! DEFINITION. The plain-data records State is made of, unit by unit. -/

namespace Sys2Proof.Machine

/-! ## Events (R63, R67) -/

/-- An event record (R63) before its SEQ and STITCH are given. -/
structure Evt where
  time : Nat
  source : Nat
  code : Nat
  stitch : Nat
  job : Nat
  sev : Nat
  tag : Nat
  arg : Nat
  deriving DecidableEq, Repr

/-- A record the log holds: the space it occupies and, once sequenced, its running number (SEQ is its low 32 bits). -/
structure EvtHeld where
  evt : Evt
  kept : Bool
  seq : Option Nat
  deriving DecidableEq, Repr

/-- The event log (R66, R67). -/
structure EvtLog where
  held : List EvtHeld
  next : Nat
  lost : Nat
  lostFault : Nat
  since : Nat
  sinceFault : Bool
  deriving DecidableEq, Repr

/-! ## Time (R45, R46, R59, R60, R429) -/

/-- The time-stamp counter and its discipline. -/
structure Tsc where
  now : Nat
  locked : Bool
  everLocked : Bool
  holdover : Bool
  stepped : Bool
  offset : Int
  slew : Int
  sync : Option (Nat × Nat × Option Nat)   -- SEQUENCE_ID, t2, t1 once known (with corrections applied)
  delayReq : Option (Nat × Nat)            -- SEQUENCE_ID and t3 of the Delay_Req sent
  pulse : Option Nat                       -- a PPS_IN pulse waiting for its frame
  lastPulse : Option Nat
  ignored : Nat
  todValid : Bool
  deriving DecidableEq, Repr

/-- A pending change of the grid (R46): the period asked for, and the new origin O. -/
structure GridChange where
  period : Nat
  origin : Nat
  deriving DecidableEq, Repr

/-- The stitch timer (R41 to R47). -/
structure Sth where
  number : Nat
  period : Nat
  origin : Nat
  start : Nat                    -- the boundary that began the stitch in progress
  boundary : Nat                 -- the next boundary due
  closed : Bool                  -- the administration reserve has begun
  gap : Bool                     -- between b and O (R46)
  firstOfGrid : Bool             -- the first stitch of a new grid runs no commands
  change : Option GridChange
  heldLo : Nat                   -- STH_ORIGIN_LO as written (R69)
  lateSent : Bool
  replayed : Bool                -- a replay took place in the stitch in progress
  overruns : Nat
  refused : Nat
  slips : Nat
  deriving DecidableEq, Repr

/-! ## Commands (R204, R328) -/

/-- A command descriptor (R204); `bad` when a reserved code or bit is set. -/
structure Desc where
  tag : Nat
  job : Nat
  stream : Nat
  verdict : Bool
  target : Nat
  cost : Nat
  clBase : Nat
  clCount : Nat
  program : Nat
  args : Nat
  wait0 : Option (Nat × Nat)
  wait1 : Option (Nat × Nat)
  signal : Option (Nat × Nat)
  bad : Bool
  deriving DecidableEq, Repr

/-- Final statuses of R328. -/
inductive Final where
  | completed | refused | overrun | aborted | programError | discarded
  deriving DecidableEq, Repr

/-- Where a command stands. -/
inductive Phase where
  | held
  | admitted
  | dispatched
  | ended (f : Final)
  deriving DecidableEq, Repr

/-- A product table entry (R181). -/
structure Prod where
  k : Nat
  split : Nat
  fmtA : Nat
  fmtB : Nat
  mode : Nat
  deriving DecidableEq, Repr

/-- One posted command; its position in State is its identity. -/
structure Cmd where
  d : Desc
  sid : Nat                     -- the session whose tag it is
  port : Nat
  time : Nat                    -- ingress stamp
  source : Nat
  notify : Bool
  notified : Bool
  phase : Phase
  code : Nat
  errArg : Nat
  stitch : Nat                  -- the stitch it was admitted to
  charged : Bool                -- its cost counts against that stitch
  posted : Bool                 -- some admission was reached
  step : Option (Nat × Nat)     -- training slot and step it is bound to
  fenced : Bool                 -- an update command fenced on the step's verdict
  standin : Bool
  fallback : Bool
  measured : Nat
  endsMade : List Nat           -- logical clusters whose END has been released
  begun : List Nat              -- logical clusters on which it has begun
  after : List Nat              -- host writes that must have reached their tier (R329)
  prods : List Prod
  codeLen : Nat                 -- CODE_LEN of its image at admission
  deriving DecidableEq, Repr

/-! ## Clusters (R19, R20, R183 to R202) -/

/-- A stall of a context (R185). -/
inductive Stall where
  | none
  | wait0
  | wait1
  | buckle (b t : Nat)
  | prefetch (pf tile : Nat)
  | fence
  | done                        -- END issued
  | error                       -- stopped by a program error
  deriving DecidableEq, Repr

/-- One stream context of a pommel core (R183). -/
structure Ctx where
  cmd : Option Nat
  pc : Nat
  vl : Nat
  s : List Word64
  code : List Word64
  stall : Stall
  deriving DecidableEq, Repr

/-- A stationary tile held in the array (R113): its bytes as loaded and how they read. -/
structure Stationary where
  fmt : Nat
  mode : Nat
  ref : Bool
  trs : Bool
  sat : Bool
  kvalid : Nat                  -- K indices above it were loaded as zero operands
  bytes : List Byte
  deriving DecidableEq, Repr

/-- An array operation issued and not yet streamed (R119), or a CMB (R192). `n` is its issue number on the cluster. -/
structure ArrOp where
  n : Nat
  ctx : Nat
  cmd : Nat
  pc : Nat                      -- byte offset of its instruction
  cmb : Bool
  word : Nat
  a : Nat                       -- stationary tile address, or the slot value of a CMB
  b : Nat
  aux : Nat                     -- address for FILL or SPILL
  mask : Nat                    -- mask tile address, or the causal offset as a 64-bit word
  deriving DecidableEq, Repr

/-- A slot of the output store that a command has used (R120 to R124); `freed` once emitted or spilled. -/
structure Slot where
  slot : Nat
  rows : Nat
  mode : Nat
  cmd : Nat
  freed : Bool
  deriving DecidableEq, Repr

/-- A tile of the tile queue, or with `tap` a slot waiting behind the drain tap (R158, R161). `bytes` are the emitted
values in the format OUTFMT named (block formats in the layout of R81), or the slot as it stands; `records` the statistics
records; `pos` the read position. -/
structure Tile where
  slot : Nat
  cmd : Nat
  outfmt : Nat
  mode : Nat
  sat : Bool
  rows : Nat
  bytes : List Byte
  records : List Byte
  pos : Nat
  cset : Nat
  tap : Bool
  op : Nat                      -- the issue number of its operation
  deriving DecidableEq, Repr

/-- A LAST pass whose slot waits to be emitted (R125, R126). -/
structure Emit where
  op : ArrOp
  deriving DecidableEq, Repr

/-- The statistics run of a cluster (R139). -/
structure StatRun where
  active : Bool
  next : Nat
  seqErr : Bool
  cmd : Nat
  rows : List StatRow
  deriving DecidableEq, Repr

/-- One drain counter set (R137). -/
structure DrnCnt where
  zeroed : Nat := 0
  saturated : Nat := 0
  outInf : Nat := 0
  outNan : Nat := 0
  fallback : Nat := 0
  emptyRows : Nat := 0
  nanRows : Nat := 0
  deriving DecidableEq, Repr

/-- What an operation has still to do before its counts are whole: its emission, or the reading of its tile through the
tap (R138, R161). -/
inductive DrnLeft where
  | nothing | emission | tapRead
  deriving DecidableEq, Repr

/-- The counts of one operation for its drain counter set, not yet in the set (R138). -/
structure DrnOpen where
  op : Nat
  set : Nat
  cmd : Nat
  cnt : DrnCnt
  left : DrnLeft
  deriving DecidableEq, Repr

/-- A chain pass issued and not yet run (R146), with its scalars sampled at issue (R151). -/
structure ChainOp where
  n : Nat
  ctx : Nat
  cmd : Nat
  pc : Nat                      -- byte offset of its instruction
  word : Nat
  e : Nat
  src : Word64
  dst : Word64
  va : Nat
  vb : Nat
  k0 : Word64
  k1 : Word64
  sd : Nat
  x : Word64
  deriving DecidableEq, Repr

/-- A stream prefetcher (R198, R199). -/
structure Prefetcher where
  active : Bool
  cmd : Nat
  base : Nat
  klen : Nat
  fmt : Nat
  lines : Nat
  line0 : Nat
  koff0 : Nat
  count : Nat
  order : Nat
  ring : Nat
  ringBase : Nat
  delivered : Nat
  released : Nat
  failed : Bool                 -- it met a poisoned unit or an address in no tier
  relPending : List (Nat × Nat) -- tiles to free once operations below an issue number have taken effect
  deriving DecidableEq, Repr

/-- What a release gate holds (R344). -/
inductive Effect where
  | signal (buckle inc : Nat)
  | endCmd
  deriving DecidableEq, Repr

/-- An effect held by the release gate: issued at `t`, after the operations below `before` of its context. -/
structure Gated where
  t : Nat
  ctx : Nat
  cmd : Nat
  before : Nat
  what : Effect
  deriving DecidableEq, Repr

/-- An issue error register (R117, R155, R193). -/
structure ErrReg where
  err : Bool := false
  code : Nat := 0
  count : Nat := 0
  ctx : Nat := 0
  pc : Nat := 0
  deriving DecidableEq, Repr

inductive ClState where
  | active | spare | retired
  deriving DecidableEq, Repr

/-- A command begun on a cluster in the stitch, with the signals and END it has released there (R347, R348). -/
structure Begun where
  cmd : Nat
  ctx : Nat
  signals : Nat
  ended : Bool
  deriving DecidableEq, Repr

/-- One cluster Tt.Cc. -/
structure Cluster where
  state : ClState
  logical : Option Nat
  tap : Bool
  colUsed : Nat                   -- SPARE_USED
  ctxs : List Ctx
  last : Option Nat               -- the context that issued last
  holds : Bool                    -- that context has neither stalled nor ended its command since (R185)
  opNext : Nat                    -- the next issue number
  stat : Option Stationary
  cfg : Option (Nat × Nat × Bool) -- FMT, MODE, REF of the last operation
  arrQ : List ArrOp
  emits : List Emit
  tq : List Tile
  ostore : List (Nat × Byte)
  slots : List Slot
  lastNamed : List Slot           -- for each slot number, ROWS and MODE of the last operation that named it (R145)
  run : StatRun
  drn : List DrnCnt
  drnMark : List Nat              -- per set, the issue number from which counts stand (DRN_CNT_CLEAR)
  drnOpen : List DrnOpen          -- in issue order, operations whose counts are not whole, and those behind them (R138)
  drnCopy : List DrnCnt
  chainQ : List ChainOp
  lch : List LchCnt
  lchMark : List Nat              -- the same for LCH_CNT_CLEAR
  lchCopy : List LchCnt
  ccw : Nat
  vlSet : Nat
  vregs : List (Nat × Byte)
  ts : List (Nat × Byte)
  t0Kib : Nat
  pfs : List Prefetcher
  gate : List Gated
  begun : List Begun
  suppress : List (Nat × Nat)     -- per command, signals still to be made with no effect (R348)
  replayQ : List (Nat × Nat)      -- commands to re-execute: command, context
  replayAt : Nat                  -- the stamp at which this cluster was chosen for a replay
  stopped : Bool                  -- it failed and runs nothing more in the stitch
  mxaErr : ErrReg
  lchErr : ErrReg
  pmcErr : ErrReg
  busy : Nat
  bubble : Nat
  fences : Nat
  fenceCycles : Nat
  chainBusy : Nat
  discards : Nat
  issued : Nat
  switches : Nat
  conflicts : Nat
  deriving DecidableEq, Repr

/-- A write that has been issued and has not reached its tier (R25, R202, R329): the cluster, context and issue number
of a store or move, or the session and SEQ of a DATA_WRITE. -/
structure DevWrite where
  id : Nat
  addr : Nat
  bytes : List Byte
  cluster : Option (Nat × Nat × Nat)
  cmd : Option Nat
  host : Option (Nat × Nat)
  deriving DecidableEq, Repr

/-! ## Saddlebag (R208 to R238) -/

inductive PageKind where
  | unmapped | writable | library | lent
  deriving DecidableEq, Repr

inductive Tier where
  | t0 | t1 | t2 | t3 | t4
  deriving DecidableEq, Repr

/-- One page of the device range. -/
structure Page where
  kind : PageKind
  hint : Nat
  home : Tier
  copies : List Tier
  loading : Bool
  lost : Bool
  lentOut : List Nat          -- lender side: the lending associations that hold it
  lender : Option (Nat × Nat) -- borrower side: association and the lender's address
  uses : List Bool            -- use in the last 16 stitches, newest first (R219)
  used : Bool
  writes : List Bool          -- and writes, which alone count for a stream-once page (R212, R219)
  wrote : Bool
  stack : Nat                 -- the stack that holds its T1 home or copy (R218)
  since : List (Tier × Nat)   -- when its data last reached a tier (R224)
  bound : List Tier           -- where the copy being fetched goes (R215, R219)
  deriving DecidableEq, Repr

/-- A page-map change requested and not yet in effect (R211). -/
inductive MapOp where
  | map (first count hint : Nat)
  | unmap (first count : Nat)
  | hint (first count hint : Nat)
  | loading (first count hint : Nat)
  | library (first count hint : Nat)
  | dropLoad (first count : Nat)
  | lent (first count assoc laddr : Nat) (host : Nat × Nat)
  | lentEnd (assoc : Nat)
  deriving DecidableEq, Repr

/-- A map request: its stamp, its change, and for a lender's notice the earliest time it may act. -/
structure MapReq where
  time : Nat
  op : MapOp
  notBefore : Nat
  deriving DecidableEq, Repr

/-- The outcome of a schedule entry (R225, R229). -/
inductive Outcome where
  | none | standin | stall | forceFail
  deriving DecidableEq, Repr

/-- A started schedule entry and its window (R223 to R226). -/
structure Window where
  entry : Nat
  addr : Nat
  len : Nat
  standin : Nat
  stitchRel : Nat
  deadlineNs : Nat
  hold : Nat
  fmt : Nat
  sfmt : Nat
  klen : Nat
  target : Tier
  tree : Option Nat        -- TREE where AFF is set
  decided : Bool
  outcome : Outcome
  deadline : Nat           -- the time the decision was taken
  deriving DecidableEq, Repr

/-- One prefetch schedule slot (R220): the values in effect since EN last took effect. -/
structure Sched where
  on : Bool
  base : Nat
  count : Nat
  job : Nat
  stitch0 : Nat
  forced : Bool
  dlog : Nat
  dlogCap : Nat
  dir : Nat
  dirCount : Nat
  next : Nat
  prev : Option (Nat × Nat)   -- (STITCH_REL, DEADLINE_NS) of the entry before
  windows : List Window
  used : Nat
  sinceEn : Nat               -- records written since EN was last set (R241)
  ovf : Bool
  misses : Nat
  cleared : Bool              -- EN has been cleared since the last boundary
  asked : List Nat            -- the slot's register words when EN was last set (R241)
  deriving DecidableEq, Repr

/-- What the flash translation layer keeps of one block (R234). -/
structure FlashBlock where
  erases : Nat
  reads : Nat
  lastLevels : Nat
  retired : Bool
  programmed : Nat           -- flash pages programmed since it was last erased
  deriving DecidableEq, Repr

/-- The flash translation layer (R233 to R237). -/
structure Ftl where
  blocks : List (Nat × FlashBlock)
  retired : Nat
  refreshes : Nat
  flashGib : Nat             -- user capacity
  maps : List (Nat × List Nat)   -- LIBRARY pages: the block on each channel that holds 8 flash pages of it (R233)
  scans : List Nat           -- blocks whose scan the host has ordered (R237)
  deriving DecidableEq, Repr

/-- A library load (R334). -/
structure Load where
  sid : Nat
  first : Nat
  count : Nat
  hint : Nat
  written : List (Nat × Nat) -- next unwritten byte of each page, zero where unlisted
  deriving DecidableEq, Repr

/-! ## Lending (R230, R337, R338) -/

/-- A borrowed read waiting for LEND_DATA: the lender's address, the tag and what it serves. -/
structure LendWait where
  tag : Nat
  laddr : Nat
  len : Nat
  sent : Nat
  deriving DecidableEq, Repr

/-- A message kept until acknowledged (R323). -/
structure Chan where
  rxNext : Nat
  rxHeld : List (Nat × Nat × Nat × Option Nat × Msg)   -- SEQ, port, source, ACK, payload out of order
  txNext : Nat
  deriving DecidableEq, Repr

/-- Where a frame goes: a host's network source outside any session, a session, the reduction channel to a module, a
lending association as its borrower or as its lender, or the link itself. -/
inductive Dest where
  | host (src : Nat)
  | session (sid : Nat)
  | reduction (peer : Nat)
  | borrow (index : Nat)
  | lent (index : Nat)
  | link
  deriving DecidableEq, Repr

/-- A read that waits for a copy of a read-only page (R219, R226): by a host, with its RSEQ, or by a borrower, with its
TAG. -/
structure WaitRead where
  who : Dest
  rseq : Nat
  addr : Nat
  len : Nat
  deriving DecidableEq, Repr

/-- A LEND_OPEN that waits for LEND_ACCEPT: the host's session and request while it has not been answered, the lender's
address, the borrower's pages, and when it was sent. -/
structure LendOpening where
  host : Option (Nat × Nat)
  laddr : Nat
  first : Nat
  count : Nat
  sent : Nat
  deriving DecidableEq, Repr

/-- A borrower's association with a lender (0 to 7). -/
structure Borrow where
  lender : Option Nat
  opening : List LendOpening                       -- in the order sent
  maps : List (Nat × Nat × Nat)                    -- first page, count, laddr
  fetches : List (Nat × Nat × Nat)                 -- pages being copied here: page, next offset to ask for, bytes received
  waits : List LendWait
  nextTag : Nat
  lost : Bool
  ended : Bool                                     -- LEND_CLOSE has been sent: the association is over
  chan : Chan
  deriving DecidableEq, Repr

/-- A lender's association with a borrower; `ended` when LEND_CLOSE has come or its time is up. -/
structure Lent where
  borrower : Option Nat
  chanId : Nat
  ended : Bool
  pages : List (Nat × Nat)          -- first page, count
  notice : Option Nat               -- stamp of LEND_NOTICE
  chan : Chan
  deriving DecidableEq, Repr

/-! ## Training (R242 to R275) -/

inductive StepPhase where
  | collecting | closing | voting | decided | retired
  deriving DecidableEq, Repr

/-- The counts latched or compared under R245, for one logical cluster: chain sets and drain sets in order. -/
structure Latch where
  logical : Nat
  lch : List LchCnt
  drn : List DrnCnt
  deriving DecidableEq, Repr

/-- One step of a training slot. -/
structure TStep where
  num : Nat
  phase : StepPhase
  seed : Nat
  exp : Nat
  stash : Nat
  span : Nat
  added : Nat
  prev : Nat
  modes : Nat
  latch : List Latch
  flag : Bool                 -- the local flag, or raised early by R290
  votingAt : Nat
  verdict : Option Bool       -- true for OVERFLOW
  verdictAt : Nat
  verdictStitch : Nat
  expNext : Nat
  cleanAfter : Nat
  firstStitch : Option Nat
  missing : Bool
  halted : Bool
  diverged : Bool
  discarded : Nat
  fb : List (Nat × Nat)       -- layer and STATE of the fallback elements
  standins : List Nat         -- stand-in elements
  dlogOvf : Bool
  rplVerdict : Option Nat     -- the verdict of the record replayed
  noRecord : Bool             -- its structures could not be read (R443)
  deriving DecidableEq, Repr

/-- Why a slot is halted. -/
inductive Halt where
  | stop | diverge | verdictLost
  deriving DecidableEq, Repr

/-- An entry of the fallback table. -/
structure Layer where
  req : Nat
  state : Nat
  left : Nat
  deriving DecidableEq, Repr

/-- A verdict that waits for a captured page (R247, R369): the flag, whether contributors are missing, and the decision of R267
where RESUME has taken it already (R268): the table, the stitches added and the layers left narrow. -/
structure Late where
  flag : Bool
  missing : Bool
  settled : Option (List Layer × Nat × Nat)
  deriving DecidableEq, Repr

/-- One training slot (R242). -/
structure TSlot where
  enabledAt : Nat
  steps : List TStep
  halt : Option Halt
  diverge : Bool
  exp : Nat
  clean : Nat
  effect : Nat
  expWrite : Option Nat       -- the last counting write of TRN_SCALE since the last verdict
  pendFlag : Option (Bool × Bool) -- a decision that STOP holds: verdict, missing
  late : Option Late          -- a verdict that waits for the next state block to be written
  enabling : Option Nat       -- EN waits for the first state block to be written (R248, R369): the job
  overflows : Nat
  discards : Nat
  deriving DecidableEq, Repr

/-! ## Girth (R276 to R302) -/

/-- What a point has received from the holder of one operand. -/
structure Operand where
  rank : Nat                  -- the sender
  start : Option RedStart
  startAt : Nat
  elems : List Nat            -- elements received, in ascending order
  got : Nat                   -- data messages received
  empty : Bool                -- taken as empty
  again : Bool                -- its second START, sent for a trigger after a timeout of its own, has come (R289)
  deriving DecidableEq, Repr

/-- One instance of an entry on this module (R282). -/
structure Inst where
  group : Nat
  entry : Nat
  step : Nat
  k : Nat
  triggered : Bool
  crossT : Nat
  crossSrc : Nat
  cmd : Option Nat
  op : Nat
  all : Bool
  nelem : Nat
  result : Nat
  done : Nat
  dl : Option Nat             -- D; none beyond all time
  dlNs : Nat
  dlStitch : Nat
  dec : Nat                   -- 1 IN, 2 OUT LATE, 3 OUT ERR
  own : List Nat              -- the module value, empty when OUT
  ownEmpty : Bool
  operands : List Operand
  sentStart : Bool
  sentUp : Bool
  firstStart : Option Nat
  shards : List (Nat × Nat)   -- final elements received: index and value
  final : Option (Nat × List Bool) -- NIN and IN set
  ended : Option Nat          -- 0 COMPLETE, 1 PARTIAL, 2 FAILED, 3 HOST
  mask : Nat
  port : Nat
  deriving DecidableEq, Repr

/-- One reduction group (R276). -/
structure Group where
  counts : List (Nat × Nat)               -- per entry, triggers since EN was set
  ks : List (Nat × Nat × Nat)             -- entry, STEP, earlier triggers
  queued : List (Nat × Nat × Nat × Option Nat × Nat) -- entry, crossing stamp, source, sending command, how many triggers
  insts : List Inst
  mlogNext : Nat
  ended : Nat
  partialCnt : Nat
  failed : Nat
  deriving DecidableEq, Repr

/-! ## Outgoing frames -/

/-- One CMD_STATUS record (R327). -/
structure StatusRec where
  tag : Nat
  status : Nat
  code : Nat
  degr : Nat
  stitch : Nat
  declared : Nat
  measured : Nat
  step : Nat
  arg : Nat
  deriving DecidableEq, Repr

/-- A sequenced event record as EVENT carries it (R63, R335). -/
structure EvtOut where
  seq : Nat
  evt : Evt
  deriving DecidableEq, Repr

/-- What the module sends. -/
inductive Out where
  | challenge (sid modnum maxp contract : Nat) (nh nm : List Byte)
  | accept (sid : Nat) (a : List Byte) (resumed : Bool)
  | reject (reason sid : Nat) (nh : List Byte)
  | close
  | ack (next : Nat)
  | cmdStatus (recs : List StatusRec)
  | abortResult (tag result rseq : Nat)
  | regResp (rseq : Nat) (results : List (Reg32 × Nat))
  | dataResp (addr status rseq : Nat) (data : List Byte)
  | dataPush (stream offset : Nat) (data : List Byte)
  | event (recs : List EvtOut)
  | lendResp (status rseq : Nat)
  | libResp (status rseq : Nat)
  | redStart (r : RedStart)
  | redData (r : RedData)
  | redFinal (r : RedFinal)
  | redFail (n : InstName)
  | lendOpen (r : LendReq)
  | lendAccept (status : Nat)
  | lendRead (laddr len tag : Nat)
  | lendData (tag status : Nat) (data : List Byte)
  | lendNotice
  | lendClose
  | attestResp (report : List Byte)
  | arpReply (ip : Nat)
  | neighbourAdvert (ip : Nat)
  | echoReply (data : List Byte)
  | delayReq (id : Nat)
  deriving DecidableEq, Repr

/-- A frame sent: stamp, port, destination, SEQ where the header carries one, RETX, contents, and the bytes of the Edgil
message it carries (R313), none for other frames. -/
structure Frame where
  t : Nat
  port : Option Nat
  dest : Dest
  seq : Option Nat
  retx : Bool
  body : Out
  bytes : List Byte
  deriving DecidableEq, Repr

/-- A message kept until it is acknowledged (R323). -/
structure Unacked where
  dest : Dest
  seq : Nat
  body : Out
  first : Nat
  last : Nat
  tries : Nat
  deriving DecidableEq, Repr

/-! ## Sessions (R317 to R321) -/

inductive SessPhase where
  | pending | open_ | linger
  deriving DecidableEq, Repr

/-- One session or reservation. -/
structure Session where
  sid : Nat
  phase : SessPhase
  cls : Nat
  slot : Nat
  job : Nat
  maxp : Nat
  resume : Nat
  nh : List Byte
  nm : List Byte
  src : Nat
  port : Nat
  since : Nat              -- reservation stamp, last delivery, or start of lingering
  chan : Chan
  waiting : List Out       -- messages beyond the window
  sub : Option Nat         -- MIN_SEV while subscribed
  entry : Nat              -- its entry of EDG_SESS_n
  evtNext : Nat            -- running number of the next record to consider
  ks : List Byte
  deriving DecidableEq, Repr

/-! ## Ports (R303 to R308, R359, R426, R427) -/

/-- One port. -/
structure Port where
  mode : Nat
  working : Nat            -- working lanes
  failed : Nat             -- lanes to which the errors of the last drop were confined
  partner : Nat            -- modes the partner accepts, as ALLOW codes them
  link : Bool
  secured : Bool
  macsec : Nat             -- MACSEC, ALLOW and CAK_SLOT as of the last training
  allow : Nat
  lanes : Nat              -- girth adder lanes in service
  spareLanes : Nat
  rx : Nat
  tx : Nat
  secDrop : Nat
  rxDrop : Nat
  supply : Bool
  identity : List Byte
  lowPower : Bool
  deriving DecidableEq, Repr

/-! ## Faults, spares and memory (R345 to R372) -/

/-- One HBM stack. -/
structure Hbm where
  inserv : Bool
  ceAt : List Nat          -- the stamps of the errors corrected since reset (R372)
  rows : List (Nat × Nat)  -- pseudo-channel and spare rows used
  spared : List Nat        -- pseudo-channels spared
  leaving : Bool           -- being evacuated (R362)
  blocked : Bool           -- SPR_EVAC_BLOCKED has been sent
  deriving DecidableEq, Repr

/-- One DDR channel. -/
structure Ddr where
  inserv : Bool
  gib : Nat
  rate : Nat                -- MT/s (R239)
  ceAt : List Nat           -- as for a stack
  r0 : Option Nat
  r1 : Option Nat
  leaving : Bool
  blocked : Bool
  deriving DecidableEq, Repr

/-- A change of a cluster that waits for the boundary: the logical number of a cluster that has failed falls vacant (R351,
R354), the number itself is vacated whichever cluster holds it then (R361), a cluster that has failed becomes RETIRED or a
TAP spare (R350), or a spare is substituted (R354). -/
inductive ClChange where
  | vacate (cluster : Nat)
  | shed (logical : Nat)
  | retire (cluster : Nat) (tapped : Bool)
  | subst (spare logical : Nat)
  deriving DecidableEq, Repr

/-- Spare-management state. -/
structure Spr where
  cover : Bool             -- COVER in effect
  lastCode : Nat
  lastSource : Nat
  lastTime : Nat
  replays : Nat
  memUe : Nat
  fwRestarts : Nat
  hbm : List Hbm
  ddr : List Ddr
  phases : List Nat        -- spare phases left: trees 0 to 3, hub
  found : List (Nat × Nat × Nat) -- code, SEV and ARG of SPR_PHASE and SPR_PLL records that the next monitor update stamps
  pll : Nat
  standbyOk : Bool
  fatal : Bool
  changes : List ClChange
  bridgeMoved : List Bool  -- bridge adders whose additions the ports perform (R359)
  holders : List (Nat × Nat) -- vacant logical numbers and the physical cluster that last held each (R407)
  deriving DecidableEq, Repr

/-! ## Checkpoints (R366 to R370) -/

inductive CkpPhase where
  | idle | armed | streaming | waiting | done | aborted
  deriving DecidableEq, Repr

/-- One entry of a captured page list. -/
structure CkpEntry where
  addr : Nat
  len : Nat
  klen : Nat
  kx8 : Bool
  deriving DecidableEq, Repr

/-- The checkpoint engine. -/
structure Ckp where
  phase : CkpPhase
  cause : Nat
  captureAt : Nat
  entries : List CkpEntry
  pages : List Nat          -- listed pages not yet copied, streamed or released
  copied : List Nat         -- pages held in the copy buffer
  stream : List Byte        -- bytes of the stream not yet sent
  sent : Nat                -- bytes sent
  acked : Nat               -- bytes acknowledged
  total : Nat
  deriving DecidableEq, Repr

/-! ## Boot, identity and protection (R374 to R400) -/

/-- A firmware image as an image slot of the boot partition holds it (R378). -/
structure FwImage where
  valid : Bool
  version : Nat
  svn : Nat
  keyidx : Nat
  revoke : Nat
  digest : List Byte
  deriving DecidableEq, Repr

/-- A key slot of the key store (R392, R393). -/
structure KeySlot where
  key : Option (List Byte)
  classes : Nat
  use : Nat
  provision : Bool
  jobMin : Nat
  jobMax : Nat
  deriving DecidableEq, Repr

/-- A region of the protection map (R397). -/
structure Region where
  base : Nat
  limit : Nat
  perm : Nat
  deriving DecidableEq, Repr

/-- The key store: keys, regions, policy. -/
structure KeyStore where
  slots : List KeySlot
  policy : Nat
  regions : List Region
  deriving DecidableEq, Repr

/-- One entry of the measurement log (R390). -/
structure MLog where
  time : Nat
  reg : Nat
  type : Nat
  digest : List Byte
  deriving DecidableEq, Repr

inductive BootPhase where
  | rom | init | ready | fail
  deriving DecidableEq, Repr

/-- What fuses and the boot partition keep across resets (R376). -/
structure Kept where
  counter : Nat
  revoked : Nat
  lifecycle : Nat
  mac : Nat
  serial : List Byte
  pref : Nat
  images : List FwImage
  boots : Nat
  store : Option KeyStore
  staged : Option KeyStore
  retired : List Nat        -- retirement record: physical clusters RETIRED
  taps : List Nat           -- and those made TAP spares
  vacated : List (Nat × Nat) -- logical numbers vacated for want of phases, with the cluster that held each (R361, R377)
  hbmRows : List (List (Nat × Nat))
  hbmSpared : List (List Nat)
  deriving DecidableEq, Repr

/-- A firmware update in progress (R385). -/
inductive Upd where
  | image (sid : Nat) (bytes : Nat × Nat)
  | svn
  deriving DecidableEq, Repr

/-- The boot and security state. -/
structure Sec where
  boot : BootPhase
  cause : Nat
  fallback : Bool
  booted : Nat
  fwver : Nat
  svn : Nat
  revoke : Nat
  keyidx : Nat
  imgDigest : List Byte
  lock : Bool
  map : KeyStore            -- the slot descriptors, regions and policy in force, with the keys
  m : List (List Byte)      -- M0 to M3
  mlog : List MLog
  mfull : Bool
  ak : Option Nat           -- the private attestation key (R387); none where no key is derived
  kst : Option (List Byte)  -- the key-store key
  onboard : Option (List Byte)
  akCert : List Byte        -- the certificate IK signed for AK at this boot (R388)
  closed : Bool             -- UDS, IK and CDI are closed to every use until the next reset (R388)
  upd : Option Upd
  updResult : Nat
  ksBusy : Option (Nat × Nat) -- staging: SID and record address
  ksStaged : Bool
  ksRefused : Bool
  resetAt : Option Nat
  attests : List Nat        -- stamps of attestations answered in the last second
  debugged : Bool
  deriving DecidableEq, Repr

/-! ## Power and sideband (R423 to R438) -/

inductive PwrState where
  | off | rising | on | idle
  deriving DecidableEq, Repr

/-- Power, coolant and sideband state. -/
structure Pwr where
  state : PwrState
  idlePend : Bool           -- an accepted REQ IDLE waits for the boundary
  waking : Bool             -- an accepted REQ ON waits for the trees
  wokeAt : Nat              -- the stamp of that REQ ON
  treesReady : Bool
  rail : Nat                -- power-up steps done (R434)
  needCycle : Bool          -- OFF until PWR_EN is cycled or input restored
  pwrEn : Bool
  pgood : Nat               -- 0 low, 1 high, 2 the 1 Hz wave, 3 the 4 Hz wave
  alert : Bool
  alarm : Nat
  meas : Measure
  energy : Nat
  inReset : Bool
  deriving DecidableEq, Repr

/-- The capability values of the MOD_ page (R35, R36). -/
structure Caps where
  state : Nat
  epoch : Nat
  trees : Nat
  active : Nat
  hbmStacks : Nat
  hbmGib : Nat
  channels : Nat
  ddrGib : Nat
  flashChannels : Nat
  flashGib : Nat
  ports : Nat
  measured : Bool           -- the first boundary after boot has passed
  clusters : List (Nat × Nat) -- STATE and LOGICAL of each physical cluster
  deriving DecidableEq, Repr

/-! ## Register addresses and held accesses (R331, R401, R419, R420) -/

/-- The page types of the directory (R420). -/
inductive PageTy where
  | mod | sth | tsc | evt | pmcHub | sbg | trn | rng | grt | edg | spr | ckp | boot | sec | pwr
  | edgPort | mxa | drn | lch | pmc | tst
  deriving DecidableEq, Repr

/-- A register as an address reaches it: its page, the page's instance, the offset, and whether through the alias. -/
structure Loc where
  ty : PageTy
  inst : Nat
  off : Nat
  viaAlias : Bool
  deriving DecidableEq, Repr

/-- An access of a register message held while the firmware restarts, with its result once it has been performed. -/
structure HeldAccess where
  place : Option Loc
  result : Option (Reg32 × Nat)
  deriving DecidableEq, Repr

/-- A register message whose REG_RESP waits for the end of a firmware restart; `go` when it has ordered the reset that its
response will time (R375). -/
structure Held where
  sid : Nat
  rseq : Nat
  go : Bool
  accs : List HeldAccess
  deriving DecidableEq, Repr

end Sys2Proof.Machine
end

