-- ==== Sys2Proof/Machine/State.lean ====
section
/-! DEFINITION. The state of the block, its faults and refusals, and the state after reset. -/

namespace Sys2Proof.Machine

/-- Faults of a step. R16 leaves no input without behaviour, so no meaning raises one. -/
inductive Fault where
  /-- Raised by no command: kept because the host's interface asks for a fault type. Safe. -/
  | noBehaviour
  deriving DecidableEq, Repr

/-- Refusals of a step. -/
inductive Refusal where
  /-- Raised by exec's arm of a command that has no meaning yet, with the command's mnemonic. Safe. -/
  | notModelled (mnemonic : String)
  deriving DecidableEq, Repr

/-- The modes in effect (R408, R409), bit by bit as PG_MODE_EFFECT shows them. -/
structure Modes where
  trn : Nat
  rng : Nat
  sbg : Nat
  spr : Nat
  grt : Nat
  ckp : Nat
  deriving DecidableEq, Repr

/-- The state of the block. -/
structure State where
  /-- The queue of waiting commands, first in, first out. -/
  pending : List Instr
  /-- The model's own: how many free values have been drawn. -/
  free : Nat
  /-- Stored register fields by physical address; an unlisted register holds its reset value. -/
  regs : List (Nat × Reg32)
  /-- High halves latched by reads of _LO registers (R69). -/
  latches : List (Nat × Reg32)
  log : EvtLog
  tsc : Tsc
  sth : Sth
  cmds : List Cmd
  clusters : List Cluster
  /-- Device memory: unlisted bytes read zero (R209, R376). -/
  dev : List (Nat × Byte)
  /-- Poisoned 32-byte units by unit number (R355). -/
  poison : List Nat
  writes : List DevWrite
  nextWrite : Nat
  pages : List (Nat × Page)
  waitReads : List WaitRead
  mapReqs : List MapReq
  /-- Aborts written to ABORT: the page, and when the work they stop has stopped (R405). -/
  aborts : List (Nat × Nat)
  pgResult : Nat × Nat
  pgState : Nat
  convZeroed : Nat
  convSat : Nat
  scheds : List Sched
  ftl : Ftl
  loads : List Load
  borrows : List Borrow
  lents : List Lent
  slots : List TSlot
  groups : List Group
  /-- Reduction messages, with their sender, that wait for a place on a port (R294). -/
  redWaits : List (Nat × Msg)
  /-- Training slots whose vote waits for a place on a port (R294). -/
  voteWaits : List Nat
  grtDropped : Nat
  grtFails : Nat
  sessions : List Session
  nextSid : Nat
  authFails : Nat
  drops : Nat
  /-- For each key slot, the stamp at which its lock ends (R320). -/
  locks : List (Option Nat)
  /-- PROOF refusals seen: key slot and stamp (R320). -/
  refusals : List (Nat × Nat)
  /-- Reservations released without a PROOF: SID, key slot and NH, until the SID is drawn again (R319). -/
  expired : List (Nat × Nat × List Byte)
  /-- The peer table as last read: 48-byte entries by module number (R312). -/
  peers : List (List Byte)
  peerReload : Bool
  peerErr : List Nat
  /-- Reduction channels by peer module (R314). -/
  reds : List (Nat × Chan)
  ports : List Port
  /-- Planes A and B now lost (R307). -/
  planeLost : List Bool
  /-- Planes whose traffic returns at the next boundary. -/
  planeBack : List Bool
  unacked : List Unacked
  /-- Messages of module channels beyond their window, oldest first (R323). -/
  queued : List (Dest × Out)
  /-- The model's own: every frame sent, oldest first. -/
  tx : List Frame
  spr : Spr
  ckp : Ckp
  sec : Sec
  kept : Kept
  pwr : Pwr
  caps : Caps
  modes : Modes
  /-- The stamp of the firmware fault while the firmware restarts (R419), and the register messages whose responses wait for its end. -/
  fwDown : Option Nat
  fwHeld : List Held
  /-- When the last register access so far leaves the buses, in 21sts of a nanosecond (R418). -/
  busAt : Nat
  /-- Ports whose MKA exchange waits for the end of a firmware restart (R345). -/
  fwMka : List Nat
  deriving DecidableEq, Repr

/-! ## The state after reset -/

def Ctx.reset : Ctx := ⟨none, 0, 0, List.replicate 32 0, [], .none⟩

def Prefetcher.reset : Prefetcher := ⟨false, 0, 0, 0, 0, 0, 0, 0, 0, 0, 0, 0, 0, 0, false, []⟩

def StatRun.none : StatRun := ⟨false, 0, false, 0, []⟩

/-- A cluster after reset: stores, registers and counters zero (R376). -/
def Cluster.reset (state : ClState) (logical : Option Nat) : Cluster where
  state := state
  logical := logical
  tap := false
  colUsed := 0
  ctxs := List.replicate 3 Ctx.reset
  last := none
  holds := false
  opNext := 0
  stat := none
  cfg := none
  arrQ := []
  emits := []
  tq := []
  ostore := []
  slots := []
  lastNamed := []
  run := StatRun.none
  drn := List.replicate 8 {}
  drnMark := List.replicate 8 0
  drnOpen := []
  drnCopy := List.replicate 8 {}
  chainQ := []
  lch := List.replicate 8 {}
  lchMark := List.replicate 8 0
  lchCopy := List.replicate 8 {}
  ccw := 0
  vlSet := 0
  vregs := []
  ts := []
  t0Kib := 0
  pfs := List.replicate 4 Prefetcher.reset
  gate := []
  begun := []
  suppress := []
  replayQ := []
  replayAt := 0
  stopped := false
  mxaErr := {}
  lchErr := {}
  pmcErr := {}
  busy := 0
  bubble := 0
  fences := 0
  fenceCycles := 0
  chainBusy := 0
  discards := 0
  issued := 0
  switches := 0
  conflicts := 0

/-- The assignment of R37 for the cluster of physical index x. -/
def assigned (x : Nat) : ClState × Option Nat :=
  if x % 36 < 32 then (.active, some (32 * (x / 36) + x % 36)) else (.spare, none)

def clustersAtReset : List Cluster :=
  (upTo 144).map fun x => Cluster.reset (assigned x).1 (assigned x).2

def EvtLog.reset : EvtLog := ⟨[], 0, 0, 0, 0, false⟩

/-- The counter counts from zero on the local oscillator (R59). -/
def Tsc.reset : Tsc := ⟨0, false, false, false, false, 0, 0, none, none, none, none, 0, false⟩

/-- The grid is in force from reset with origin zero and the default period (R45). -/
def Sth.reset : Sth where
  number := 0
  period := 1000000
  origin := 0
  start := 0
  boundary := 1000000
  closed := false
  gap := false
  firstOfGrid := false
  change := none
  heldLo := 0
  lateSent := false
  replayed := false
  overruns := 0
  refused := 0
  slips := 0

def Sched.reset : Sched := ⟨false, 0, 0, 0, 0, false, 0, 0, 0, 0, 0, none, [], 0, 0, false, 0, false, []⟩

/-- User capacity at reset: 24 TiB in GiB (R233); no block listed (R234). -/
def Ftl.reset : Ftl := ⟨[], 0, 0, 24576, [], []⟩

def Chan.reset : Chan := ⟨1, [], 1⟩

def Borrow.reset : Borrow := ⟨none, [], [], [], [], 1, false, false, Chan.reset⟩

def Lent.reset : Lent := ⟨none, 0, false, [], none, Chan.reset⟩

def TSlot.reset : TSlot := ⟨0, [], none, false, 16, 0, 1, none, none, none, none, 0, 0⟩

def Group.reset : Group := ⟨[], [], [], [], 0, 0, 0, 0⟩

def Port.reset : Port := ⟨0, 0, 0, 0, false, false, 0, 15, 16, 2, 0, 0, 0, 0, true, [], true⟩

def Hbm.reset : Hbm := ⟨false, [], [], [], false, false⟩

def Ddr.reset : Ddr := ⟨false, 128, 8800, [], none, none, false, false⟩

def Spr.reset : Spr where
  cover := false
  lastCode := 0
  lastSource := 0
  lastTime := 0
  replays := 0
  memUe := 0
  fwRestarts := 0
  hbm := List.replicate 8 Hbm.reset
  ddr := List.replicate 16 Ddr.reset
  phases := List.replicate 5 2
  found := []
  pll := 0
  standbyOk := true
  fatal := false
  changes := []
  bridgeMoved := [false, false]
  holders := []

def Ckp.reset : Ckp := ⟨.idle, 0, 0, [], [], [], [], 0, 0, 0⟩

def KeySlot.empty : KeySlot := ⟨none, 0, 0, false, 0, 0⟩

def KeyStore.empty : KeyStore := ⟨List.replicate 8 KeySlot.empty, 0, []⟩

/-- Forty-eight zero bytes: a measurement register on reset (R390). -/
def zero48 : List Byte := List.replicate 48 0

def Sec.reset : Sec where
  boot := .rom
  cause := 1
  fallback := false
  booted := 0
  fwver := 0
  svn := 0
  revoke := 0
  keyidx := 0
  imgDigest := zero48
  lock := false
  map := KeyStore.empty
  m := List.replicate 4 zero48
  mlog := []
  mfull := false
  ak := none
  kst := none
  onboard := none
  akCert := []
  closed := false
  upd := none
  updResult := 0
  ksBusy := none
  ksStaged := false
  ksRefused := false
  resetAt := none
  attests := []
  debugged := false

/-- DESIGN CHOICE (log entry 5): a module as it leaves manufacture: images A and GOLDEN valid with SVN 0, B empty, no
key store written, counter 0, nothing revoked, lifecycle PRODUCTION, serial number and MAC base zero. -/
def Kept.reset : Kept where
  counter := 0
  revoked := 0
  lifecycle := 1
  mac := 0
  serial := List.replicate 16 0
  pref := 0
  images := [⟨true, 1, 0, 0, 0, zero48⟩, ⟨false, 0, 0, 0, 0, zero48⟩, ⟨true, 1, 0, 0, 0, zero48⟩]
  boots := 0
  store := none
  staged := none
  retired := []
  taps := []
  vacated := []
  hbmRows := List.replicate 8 []
  hbmSpared := List.replicate 8 []

def Measure.zero : Measure := ⟨0, 0, 0, List.replicate 5 0, 0, 0, 0, 0, 0, 0, 0, 0⟩

/-- Reset is held with the rails up and PGOOD high (R434, R435). -/
def Pwr.reset : Pwr where
  state := .on
  idlePend := false
  waking := false
  wokeAt := 0
  treesReady := false
  rail := 11
  needCycle := false
  pwrEn := true
  pgood := 1
  alert := false
  alarm := 0
  meas := Measure.zero
  energy := 0
  inReset := true

/-- Every capability field reads zero until the first boundary after boot (R36). -/
def Caps.reset : Caps := ⟨0, 0, 0, 0, 0, 0, 0, 0, 0, 0, 0, false, List.replicate 144 (0, 0)⟩

def Modes.reset : Modes := ⟨0, 0, 0, 0, 0, 0⟩

/-- The machine right after reset: reset is still held and RESET_RELEASE is the next happening of a boot (R434). -/
def State.reset : State where
  pending := []
  free := 0
  regs := []
  latches := []
  log := EvtLog.reset
  tsc := Tsc.reset
  sth := Sth.reset
  cmds := []
  clusters := clustersAtReset
  dev := []
  poison := []
  writes := []
  nextWrite := 0
  pages := []
  waitReads := []
  mapReqs := []
  aborts := []
  pgResult := (0, 0)
  pgState := 0
  convZeroed := 0
  convSat := 0
  scheds := List.replicate 16 Sched.reset
  ftl := Ftl.reset
  loads := []
  borrows := List.replicate 8 Borrow.reset
  lents := List.replicate 32 Lent.reset
  slots := List.replicate 16 TSlot.reset
  groups := List.replicate 16 Group.reset
  redWaits := []
  voteWaits := []
  grtDropped := 0
  grtFails := 0
  sessions := []
  nextSid := 1
  authFails := 0
  drops := 0
  locks := List.replicate 8 none
  refusals := []
  expired := []
  peers := []
  peerReload := false
  peerErr := []
  reds := []
  ports := List.replicate 8 Port.reset
  planeLost := [false, false]
  planeBack := [false, false]
  unacked := []
  queued := []
  tx := []
  spr := Spr.reset
  ckp := Ckp.reset
  sec := Sec.reset
  kept := Kept.reset
  pwr := Pwr.reset
  caps := Caps.reset
  modes := Modes.reset
  fwDown := none
  fwHeld := []
  busAt := 0
  fwMka := []

end Sys2Proof.Machine
end

