-- ==== Sys2Proof/Machine/Sha.lean ====
section
/-! DEFINITION. SHA-384 and HMAC-SHA-384, which the spec names for measurements, keys and message checks (R315, R318,
R379, R387, R390). PRESUMED (log entry 7): the spec names the standards and does not restate them; the constants are
those of FIPS 180-4 (fractional parts of cube roots and square roots of primes) and the keyed form is FIPS 198-1. -/

namespace Sys2Proof.Machine

/-- Round constants, first twenty. -/
def shaKa : List Word64 := [
  0x428A2F98D728AE22, 0x7137449123EF65CD, 0xB5C0FBCFEC4D3B2F, 0xE9B5DBA58189DBBC,
  0x3956C25BF348B538, 0x59F111F1B605D019, 0x923F82A4AF194F9B, 0xAB1C5ED5DA6D8118,
  0xD807AA98A3030242, 0x12835B0145706FBE, 0x243185BE4EE4B28C, 0x550C7DC3D5FFB4E2,
  0x72BE5D74F27B896F, 0x80DEB1FE3B1696B1, 0x9BDC06A725C71235, 0xC19BF174CF692694,
  0xE49B69C19EF14AD2, 0xEFBE4786384F25E3, 0x0FC19DC68B8CD5B5, 0x240CA1CC77AC9C65]

/-- Round constants, second twenty. -/
def shaKb : List Word64 := [
  0x2DE92C6F592B0275, 0x4A7484AA6EA6E483, 0x5CB0A9DCBD41FBD4, 0x76F988DA831153B5,
  0x983E5152EE66DFAB, 0xA831C66D2DB43210, 0xB00327C898FB213F, 0xBF597FC7BEEF0EE4,
  0xC6E00BF33DA88FC2, 0xD5A79147930AA725, 0x06CA6351E003826F, 0x142929670A0E6E70,
  0x27B70A8546D22FFC, 0x2E1B21385C26C926, 0x4D2C6DFC5AC42AED, 0x53380D139D95B3DF,
  0x650A73548BAF63DE, 0x766A0ABB3C77B2A8, 0x81C2C92E47EDAEE6, 0x92722C851482353B]

/-- Round constants, third twenty. -/
def shaKc : List Word64 := [
  0xA2BFE8A14CF10364, 0xA81A664BBC423001, 0xC24B8B70D0F89791, 0xC76C51A30654BE30,
  0xD192E819D6EF5218, 0xD69906245565A910, 0xF40E35855771202A, 0x106AA07032BBD1B8,
  0x19A4C116B8D2D0C8, 0x1E376C085141AB53, 0x2748774CDF8EEB99, 0x34B0BCB5E19B48A8,
  0x391C0CB3C5C95A63, 0x4ED8AA4AE3418ACB, 0x5B9CCA4F7763E373, 0x682E6FF3D6B2B8A3,
  0x748F82EE5DEFB2FC, 0x78A5636F43172F60, 0x84C87814A1F0AB72, 0x8CC702081A6439EC]

/-- Round constants, last twenty. -/
def shaKd : List Word64 := [
  0x90BEFFFA23631E28, 0xA4506CEBDE82BDE9, 0xBEF9A3F7B2C67915, 0xC67178F2E372532B,
  0xCA273ECEEA26619C, 0xD186B8C721C0C207, 0xEADA7DD6CDE0EB1E, 0xF57D4F7FEE6ED178,
  0x06F067AA72176FBA, 0x0A637DC5A2C898A6, 0x113F9804BEF90DAE, 0x1B710B35131C471B,
  0x28DB77F523047D84, 0x32CAAB7B40C72493, 0x3C9EBE0A15C9BEBC, 0x431D67C49C100D4C,
  0x4CC5D4BECB3E42B6, 0x597F299CFC657E2A, 0x5FCB6FAB3AD6FAEC, 0x6C44198C4A475817]

/-- Initial hash value of SHA-384. -/
def shaInit : List Word64 := [
  0xCBBB9D5DC1059ED8, 0x629A292A367CD507, 0x9159015A3070DD17, 0x152FECD8F70E5939,
  0x67332667FFC00B31, 0x8EB44A8768581511, 0xDB0C2E0D64F98FA7, 0x47B5481DBEFA4FA4]

/-- The eight working words. -/
structure ShaState where
  a : Word64
  b : Word64
  c : Word64
  d : Word64
  e : Word64
  f : Word64
  g : Word64
  h : Word64
  deriving DecidableEq, Repr

def rotr (n : Nat) (w : Word64) : Word64 := w.rotateRight n

def shaRound (s : ShaState) (k w : Word64) : ShaState :=
  let s1 := rotr 14 s.e ^^^ rotr 18 s.e ^^^ rotr 41 s.e
  let ch := (s.e &&& s.f) ^^^ (~~~s.e &&& s.g)
  let t1 := s.h + s1 + ch + k + w
  let s0 := rotr 28 s.a ^^^ rotr 34 s.a ^^^ rotr 39 s.a
  let maj := (s.a &&& s.b) ^^^ (s.a &&& s.c) ^^^ (s.b &&& s.c)
  ⟨t1 + (s0 + maj), s.a, s.b, s.c, s.d + t1, s.e, s.f, s.g⟩

/-- The next schedule word from the sixteen before it, oldest first. -/
def shaNext (w : List Word64) : Word64 :=
  let x := w.getD 1 0
  let y := w.getD 14 0
  let s0 := rotr 1 x ^^^ rotr 8 x ^^^ x >>> 7
  let s1 := rotr 19 y ^^^ rotr 61 y ^^^ y >>> 6
  w.headD 0 + s0 + w.getD 9 0 + s1

def shaRounds : List Word64 → (w : List Word64) → ShaState → ShaState
  | [], _, s => s
  | k :: ks, w, s => shaRounds ks (w.tail ++ [shaNext w]) (shaRound s k (w.headD 0))

def shaBlock (h : ShaState) (block : List Byte) : ShaState :=
  let w := (chunks 8 16 block).map fun bs => BitVec.ofNat 64 (ofBE bs)
  let z := shaRounds (shaKa ++ shaKb ++ shaKc ++ shaKd) w h
  ⟨h.a + z.a, h.b + z.b, h.c + z.c, h.d + z.d, h.e + z.e, h.f + z.f, h.g + z.g, h.h + z.h⟩

/-- The message with its padding to whole blocks of 128 bytes. -/
def shaPad (m : List Byte) : List Byte :=
  let zeros := (128 - (m.length + 17) % 128) % 128
  m ++ [0x80] ++ List.replicate zeros 0 ++ beBytes 16 (8 * m.length)

def ShaState.ofList (l : List Word64) : ShaState :=
  ⟨l.getD 0 0, l.getD 1 0, l.getD 2 0, l.getD 3 0, l.getD 4 0, l.getD 5 0, l.getD 6 0, l.getD 7 0⟩

/-- SHA-384 of a byte string: 48 bytes. -/
def sha384 (m : List Byte) : List Byte :=
  let p := shaPad m
  let h := (chunks 128 (p.length / 128) p).foldl shaBlock (ShaState.ofList shaInit)
  [h.a, h.b, h.c, h.d, h.e, h.f].flatMap fun w => beBytes 8 w.toNat

/-- HMAC-SHA-384 under a key. -/
def hmac384 (key m : List Byte) : List Byte :=
  let k := padTo 128 0 (if key.length ≤ 128 then key else sha384 key)
  sha384 (k.map (· ^^^ 0x5C) ++ sha384 (k.map (· ^^^ 0x36) ++ m))

/-- The ASCII bytes of a label (R315). -/
def ascii (s : String) : List Byte := s.toList.map fun c => BitVec.ofNat 8 c.toNat

end Sys2Proof.Machine
end

