-- ==== Sys2Proof/Machine/Wire.lean ====
section
/-! DEFINITION. The bytes of Edgil messages (R9, R313 to R315, R318, R325 to R339) and of event records (R63): headers and
multi-byte payload fields most significant byte first, event records and data least significant byte first. -/

namespace Sys2Proof.Machine

/-- The 32 bytes of an event record; SEQ and STITCH are the low 32 bits of the running numbers (R63). -/
def Evt.bytes (seq : Nat) (e : Evt) : List Byte :=
  leBytes 8 e.time ++ leBytes 2 (e.source % 2 ^ 12) ++ leBytes 2 e.code ++ leBytes 4 seq ++ leBytes 4 e.stitch
    ++ leBytes 2 e.job ++ leBytes 1 e.sev ++ leBytes 1 0 ++ leBytes 4 e.tag ++ leBytes 4 e.arg

/-- A CMD_STATUS record of 32 bytes (R327). -/
def StatusRec.bytes (r : StatusRec) : List Byte :=
  beBytes 4 r.tag ++ beBytes 1 r.status ++ beBytes 1 r.code ++ beBytes 1 r.degr ++ beBytes 1 0 ++ beBytes 8 r.stitch
    ++ beBytes 4 r.declared ++ beBytes 4 r.measured ++ beBytes 4 r.step ++ beBytes 4 r.arg

/-- The 16 bytes of an instance name (R336). -/
def nameBytes (n : InstName) : List Byte :=
  beBytes 2 n.job.toNat ++ beBytes 2 n.entry.toNat ++ beBytes 2 n.k.toNat ++ beBytes 2 0 ++ beBytes 8 n.step.toNat

/-- A map of ranks, bit 0 of the first byte first (R336). -/
def mapBytes (bs : List Bool) : List Byte :=
  (chunks 8 bs.length bs).map fun c => BitVec.ofNat 8 (c.foldr (fun b n => b2n b + 2 * n) 0)

/-- The fields of LEND_MAP, as LEND_OPEN repeats them (R337). -/
def lendReqBytes (r : LendReq) : List Byte :=
  beBytes 2 r.lender.toNat ++ beBytes 2 0 ++ beBytes 4 r.count.toNat ++ beBytes 8 r.laddr.toNat ++ beBytes 8 r.baddr.toNat

/-- CLASS of R325, for what travels as an Edgil message. -/
def Out.cls : Out → Option Nat
  | .challenge .. => some 0x02
  | .accept .. => some 0x04
  | .reject .. => some 0x05
  | .close => some 0x06
  | .ack _ => some 0x07
  | .cmdStatus _ => some 0x11
  | .abortResult .. => some 0x13
  | .regResp .. => some 0x22
  | .dataResp .. => some 0x32
  | .dataPush .. => some 0x33
  | .event _ => some 0x40
  | .redStart _ => some 0x50
  | .redData _ => some 0x51
  | .redFinal _ => some 0x52
  | .redFail _ => some 0x53
  | .lendOpen _ => some 0x61
  | .lendAccept _ => some 0x62
  | .lendRead .. => some 0x63
  | .lendData .. => some 0x64
  | .lendNotice => some 0x65
  | .lendResp .. => some 0x66
  | .lendClose => some 0x68
  | .libResp .. => some 0x73
  | .attestResp _ => some 0x79
  | .arpReply _ | .neighbourAdvert _ | .echoReply _ | .delayReq _ => none

/-- The payload of each class (R318, R327, R330 to R339). -/
def Out.payload : Out → List Byte
  | .challenge sid modnum maxp contract nh nm =>
    beBytes 4 sid ++ beBytes 2 modnum ++ beBytes 2 maxp ++ beBytes 4 contract ++ beBytes 4 0 ++ nh ++ nm
  | .accept _ a resumed => a ++ beBytes 1 (b2n resumed) ++ beBytes 15 0
  | .reject reason sid nh => beBytes 1 reason ++ beBytes 3 0 ++ beBytes 4 sid ++ nh
  | .close | .ack _ | .lendNotice | .lendClose => []
  | .cmdStatus rs => beBytes 1 rs.length ++ beBytes 7 0 ++ rs.flatMap StatusRec.bytes
  | .abortResult tag result rseq => beBytes 4 tag ++ beBytes 1 result ++ beBytes 3 0 ++ beBytes 4 rseq
  | .regResp rseq rs =>
    beBytes 1 rs.length ++ beBytes 3 0 ++ beBytes 4 rseq
      ++ rs.flatMap fun r => beBytes 4 r.1.toNat ++ beBytes 1 r.2 ++ beBytes 3 0
  | .dataResp addr status rseq data => beBytes 8 addr ++ beBytes 1 status ++ beBytes 3 0 ++ beBytes 4 rseq ++ data
  | .dataPush stream offset data => beBytes 4 stream ++ beBytes 4 0 ++ beBytes 8 offset ++ data
  | .event rs => beBytes 1 rs.length ++ beBytes 7 0 ++ rs.flatMap fun r => r.evt.bytes r.seq
  | .lendResp status rseq | .libResp status rseq => beBytes 1 status ++ beBytes 3 0 ++ beBytes 4 rseq
  | .redStart r =>
    nameBytes r.name ++ beBytes 1 r.depth.toNat ++ beBytes 1 r.dec.toNat ++ beBytes 2 0 ++ beBytes 2 r.rlo.toNat
      ++ beBytes 2 r.rhi.toNat ++ beBytes 4 r.ndata.toNat ++ beBytes 4 r.dlNs.toNat ++ beBytes 8 r.dlStitch.toNat
      ++ mapBytes r.inmap
  | .redData r =>
    nameBytes r.name ++ beBytes 4 r.offset.toNat ++ beBytes 2 r.count.toNat ++ beBytes 2 r.shard.toNat ++ r.elems
  | .redFinal r => nameBytes r.name ++ beBytes 2 r.nin.toNat ++ beBytes 1 r.vote.toNat ++ beBytes 5 0 ++ mapBytes r.inmap
  | .redFail n => nameBytes n
  | .lendOpen r => lendReqBytes r
  | .lendAccept status => beBytes 1 status ++ beBytes 3 0
  | .lendRead laddr len tag => beBytes 8 laddr ++ beBytes 4 len ++ beBytes 4 tag
  | .lendData tag status data => beBytes 4 tag ++ beBytes 1 status ++ beBytes 3 0 ++ data
  | .attestResp report => report
  | .arpReply _ | .neighbourAdvert _ | .echoReply _ | .delayReq _ => []

/-- ACK where ACKV is set: in an ACK message, and in ACCEPT, which acknowledges PROOF (R319). No other message sent carries
one: R323 lets each delivered message be acknowledged by an ACK message (log entry 59). -/
def Out.ackOf : Out → Option Nat
  | .ack next => some next
  | .accept .. => some 1
  | _ => none

/-- The fields of an Edgil header (R313). -/
structure EdgHdr where
  cls : Nat
  ack : Option Nat
  retx : Bool
  srcMod : Nat
  dstMod : Nat
  chan : Nat
  seq : Nat
  plen : Nat
  deriving DecidableEq, Repr

/-- The 24 bytes of an Edgil header (R313). -/
def EdgHdr.bytes (h : EdgHdr) : List Byte :=
  beBytes 1 1 ++ beBytes 1 h.cls ++ beBytes 2 (b2n h.ack.isSome * 2 ^ 15 + b2n h.retx * 2 ^ 14) ++ beBytes 2 h.srcMod
    ++ beBytes 2 h.dstMod ++ beBytes 4 h.chan ++ beBytes 4 h.seq ++ beBytes 4 (h.ack.getD 0) ++ beBytes 2 h.plen ++ beBytes 2 0

/-- The ICV under a key, or zero where no key applies (R314, R315). -/
def icvOf (key : Option (List Byte)) (h : EdgHdr) (payload : List Byte) : List Byte :=
  match key with
  | some k => (hmac384 k (h.bytes ++ payload)).take 16
  | none => List.replicate 16 0

/-- A whole message: header, payload, ICV (R313). -/
def message (key : Option (List Byte)) (h : EdgHdr) (payload : List Byte) : List Byte := h.bytes ++ payload ++ icvOf key h payload

/-- Kf, from the key of the slot that EDG_FABRIC names (R315). -/
def fabricKey (key : List Byte) : List Byte := (hmac384 key (ascii "EDGIL-FABRIC")).take 32

end Sys2Proof.Machine
end

