-- ==== Sys2Proof/Machine/Ops.lean ====
section
/-! DEFINITION. The named operations over State that every family shares: access to its parts, stamps, free values,
the register file, event records, ports and sending. -/

namespace Sys2Proof.Machine

/-! ## Access to the parts -/

/-- The outcome every meaning answers with: the next state (R16). -/
def done (s : State) : Host.Outcome State Fault Refusal := .next s

def State.cl (s : State) (x : Nat) : Cluster := s.clusters.getD x (Cluster.reset .retired none)

def onCl (x : Nat) (f : Cluster → Cluster) (s : State) : State :=
  { s with clusters := setAt s.clusters x (f (s.cl x)) }

def Cluster.cx (c : Cluster) (k : Nat) : Ctx := c.ctxs.getD k Ctx.reset

def Cluster.onCx (k : Nat) (f : Ctx → Ctx) (c : Cluster) : Cluster :=
  { c with ctxs := setAt c.ctxs k (f (c.cx k)) }

def onCtx (x k : Nat) (f : Ctx → Ctx) (s : State) : State := onCl x (Cluster.onCx k f) s

def onCmd (id : Nat) (f : Cmd → Cmd) (s : State) : State :=
  match s.cmds[id]? with
  | some c => { s with cmds := setAt s.cmds id (f c) }
  | none => s

def State.slot (s : State) (n : Nat) : TSlot := s.slots.getD n TSlot.reset
def onSlot (n : Nat) (f : TSlot → TSlot) (s : State) : State := { s with slots := setAt s.slots n (f (s.slot n)) }

def State.group (s : State) (n : Nat) : Group := s.groups.getD n Group.reset
def onGroup (n : Nat) (f : Group → Group) (s : State) : State := { s with groups := setAt s.groups n (f (s.group n)) }

def State.port (s : State) (n : Nat) : Port := s.ports.getD n Port.reset
def onPort (n : Nat) (f : Port → Port) (s : State) : State := { s with ports := setAt s.ports n (f (s.port n)) }

def State.sched (s : State) (n : Nat) : Sched := s.scheds.getD n Sched.reset
def onSched (n : Nat) (f : Sched → Sched) (s : State) : State := { s with scheds := setAt s.scheds n (f (s.sched n)) }

def State.borrow (s : State) (n : Nat) : Borrow := s.borrows.getD n Borrow.reset
def onBorrow (n : Nat) (f : Borrow → Borrow) (s : State) : State := { s with borrows := setAt s.borrows n (f (s.borrow n)) }

def State.lent (s : State) (n : Nat) : Lent := s.lents.getD n Lent.reset
def onLent (n : Nat) (f : Lent → Lent) (s : State) : State := { s with lents := setAt s.lents n (f (s.lent n)) }

def onTsc (f : Tsc → Tsc) (s : State) : State := { s with tsc := f s.tsc }
def onSth (f : Sth → Sth) (s : State) : State := { s with sth := f s.sth }
def onSpr (f : Spr → Spr) (s : State) : State := { s with spr := f s.spr }
def onSec (f : Sec → Sec) (s : State) : State := { s with sec := f s.sec }
def onKept (f : Kept → Kept) (s : State) : State := { s with kept := f s.kept }
def onCkp (f : Ckp → Ckp) (s : State) : State := { s with ckp := f s.ckp }
def onPwr (f : Pwr → Pwr) (s : State) : State := { s with pwr := f s.pwr }
def onLog (f : EvtLog → EvtLog) (s : State) : State := { s with log := f s.log }

def onSession (sid : Nat) (f : Session → Session) (s : State) : State :=
  { s with sessions := updateWhere (fun x => x.sid == sid) f s.sessions }

def State.session (s : State) (sid : Nat) : Option Session := s.sessions.find? fun x => x.sid == sid

/-- The counter reaches at least the stamp `t`: it never decreases (R60). -/
def tick (t : Nat) (s : State) : State := onTsc (fun c => { c with now := max c.now t }) s

/-- Run a list of updates in order. -/
def forEach {α : Type} (xs : List α) (f : α → State → State) (s : State) : State := xs.foldl (fun s x => f x s) s

/-- Draw a free value: its number, and the state that has counted it. -/
def draw (s : State) : Nat × State := (s.free, { s with free := s.free + 1 })

/-! ## Source numbers (R61) -/

def srcStitch : Nat := 0x000
def srcSpare : Nat := 0x001
def srcCkp : Nat := 0x002
def srcSaddle : Nat := 0x003
def srcSecurity : Nat := 0x004
def srcFirmware : Nat := 0x005
def srcHub : Nat := 0x006
def srcLog : Nat := 0x007
def srcPower : Nat := 0x008
def srcCluster (x : Nat) : Nat := 0x010 + x
def srcAdder (p : Nat) : Nat := 0x0A0 + p
def srcHbm (h : Nat) : Nat := 0x0A8 + h
def srcDdr (d : Nat) : Nat := 0x0B0 + d
def srcFlash (n : Nat) : Nat := 0x0C0 + n
def srcPort (p : Nat) : Nat := 0x0D0 + p
def srcIngress (p : Nat) : Nat := 0x800 + p
def srcReg (p : Nat) : Nat := 0x808 + p
def srcSideband : Nat := 0x810
def srcSession : Nat := 0x811

/-- The order of R61 on (stamp, source). -/
def before (a b : Nat × Nat) : Bool := decide (a.1 < b.1) || (a.1 == b.1 && decide (a.2 < b.2))

/-! ## The register file (R401 to R405) -/

def hubPages : List PageTy :=
  [.mod, .sth, .tsc, .evt, .pmcHub, .sbg, .trn, .rng, .grt, .edg, .spr, .ckp, .boot, .sec, .pwr]

def clusterPages : List PageTy := [.mxa, .drn, .lch, .pmc, .tst]

def PageTy.rows : PageTy → List RegRow
  | .mod => regsMod
  | .sth => regsSth
  | .tsc => regsTsc
  | .evt => regsEvt
  | .pmcHub => regsPmcHub
  | .sbg => regsSbg
  | .trn => regsTrn
  | .rng => regsRng
  | .grt => regsGrt
  | .edg => regsEdg
  | .spr => regsSpr
  | .ckp => regsCkp
  | .boot => regsBoot
  | .sec => regsSec
  | .pwr => regsPwr
  | .edgPort => regsEdgPort
  | .mxa => regsMxa
  | .drn => regsDrn
  | .lch => regsLch
  | .pmc => regsPmc
  | .tst => regsTst

/-- TYPE of PG_ID (R420). -/
def PageTy.code : PageTy → Nat
  | .mod => 0x01
  | .sth => 0x02
  | .tsc => 0x03
  | .evt => 0x04
  | .pmcHub => 0x05
  | .sbg => 0x06
  | .trn => 0x07
  | .rng => 0x08
  | .grt => 0x09
  | .edg => 0x0A
  | .spr => 0x0B
  | .ckp => 0x0C
  | .boot => 0x0D
  | .sec => 0x0E
  | .pwr => 0x0F
  | .edgPort => 0x10
  | .mxa => 0x20
  | .drn => 0x21
  | .lch => 0x22
  | .pmc => 0x23
  | .tst => 0x24

/-- Gated pages are those whose block commands use (R406, R420). -/
def PageTy.gated : PageTy → Bool
  | .mod | .mxa | .drn | .lch | .pmc | .tst => true
  | _ => false

def hubAddr (k off : Nat) : Nat := 0x10000 * k + off
def portAddr (p off : Nat) : Nat := 0x100000 + 0x10000 * p + off
def clusterAddr (x j off : Nat) : Nat := 0x1000000 + 0x80000 * x + 0x10000 * j + off

/-- The page that a physical address reaches (R401 to R403). -/
def locPhys (addr : Nat) : Option Loc :=
  if addr < 0xF0000 then
    (hubPages[addr / 0x10000]?).map fun ty => ⟨ty, 0, addr % 0x10000, false⟩
  else if 0x100000 ≤ addr && addr < 0x180000 then
    some ⟨.edgPort, (addr - 0x100000) / 0x10000, addr % 0x10000, false⟩
  else if 0x1000000 ≤ addr && addr < 0x5800000 then
    (clusterPages[(addr - 0x1000000) % 0x80000 / 0x10000]?).map fun ty =>
      ⟨ty, (addr - 0x1000000) / 0x80000, addr % 0x10000, false⟩
  else none

/-- The physical cluster that serves a logical number. -/
def State.physOf (s : State) (logical : Nat) : Option Nat := posOf (fun c : Cluster => c.logical == some logical) s.clusters

/-- The physical cluster that MOD_CLUSTER_Tt_Cc reports as holding a logical number (R404): none before the first boundary
after boot (R36). -/
def State.aliasOf (s : State) (logical : Nat) : Option Nat :=
  if s.caps.measured then posOf (fun c : Nat × Nat => c == (0, logical)) s.caps.clusters else none

/-- The physical address behind an address: the alias follows the mapping (R404). -/
def State.physAddr (s : State) (addr : Nat) : Option Nat :=
  if 0x8000000 ≤ addr && addr < 0xC000000 then
    (s.aliasOf ((addr - 0x8000000) / 0x80000)).map fun x => 0x1000000 + 0x80000 * x + (addr - 0x8000000) % 0x80000
  else some addr

/-- The register an access names, or none for NOREG (R401). -/
def State.locate (s : State) (addr : Nat) : Option Loc :=
  if addr < 2 ^ 32 && addr % 4 == 0 then
    match s.physAddr addr with
    | some a => (locPhys a).map fun l => { l with viaAlias := decide (0x8000000 ≤ addr) }
    | none => none
  else none

/-- The map row of an offset, with the instance it names. -/
def findRow (off : Nat) : List RegRow → Option (RegRow × Nat)
  | [] => none
  | r :: rs =>
    if r.off ≤ off && decide (off < r.off + r.n * r.stride) && (off - r.off) % r.stride == 0
    then some (r, (off - r.off) / r.stride) else findRow off rs

def Loc.row (l : Loc) : Option (RegRow × Nat) :=
  if l.off < 0x100 then findRow l.off regsHeader else findRow l.off l.ty.rows

/-- The word of a register whose fields all hold their reset values. -/
def RegRow.resetWord (r : RegRow) : Nat := r.fields.foldl (fun w f => w + f.reset * 2 ^ f.lo) 0

/-- What an unlisted register holds. -/
def resetOf (addr : Nat) : Reg32 :=
  match locPhys addr with
  | some l => match l.row with
    | some (r, _) => BitVec.ofNat 32 r.resetWord
    | none => 0
  | none => 0

/-- The stored word of a register, by physical address. -/
def State.reg (s : State) (addr : Nat) : Nat := (readAt (resetOf addr) s.regs addr).toNat

/-- Store a word in the register file. -/
def setReg (addr v : Nat) (s : State) : State := { s with regs := writeAt (resetOf addr) s.regs addr (BitVec.ofNat 32 v) }

/-- A 64-bit value held in a _LO and _HI pair. -/
def State.reg64 (s : State) (lo : Nat) : Nat := s.reg lo + s.reg (lo + 4) * 2 ^ 32

/-! ## Pages of two modes (R408) -/

def State.hostScale (s : State) : Bool := bit s.modes.trn 0
def State.hostFallback (s : State) : Bool := bit s.modes.trn 1
def State.hostRandom (s : State) : Bool := bit s.modes.rng 0
def State.hostMigrate (s : State) : Bool := bit s.modes.sbg 0
def State.hostFtl (s : State) : Bool := bit s.modes.sbg 1
def State.hostSpare (s : State) : Bool := bit s.modes.spr 0
def State.hostReduce (s : State) : Bool := bit s.modes.grt 0
def State.hostCkp (s : State) : Bool := bit s.modes.ckp 0

/-! ## Stitch figures (R41 to R43) -/

def shortPeriod (p : Nat) : Bool := decide (p < 100000)

/-- B of R42 and R43. -/
def budgetOf (p : Nat) : Nat := (p - (if shortPeriod p then 10000 else 50000)) * 21 / 20

/-- W_cap of R353. -/
def coverCap (p : Nat) : Nat := (budgetOf p + 33600) / 2

/-- The nanoseconds of a stitch to which work is admitted (R41, R43). -/
def budgetNs (p : Nat) : Nat := p - (if shortPeriod p then 10000 else 50000)

/-- The time from which a stamp belongs to the next stitch: a short stitch in which a replay took place may still be
extended (R43). -/
def State.stitchEnd (s : State) : Nat :=
  s.sth.boundary + (if s.sth.replayed && shortPeriod s.sth.period then 40000 else 0)

/-- The number of the stitch that contains a time (R45), for times from the stitch before the one in progress on. -/
def State.stitchAt (s : State) (t : Nat) : Nat :=
  if s.stitchEnd ≤ t then s.sth.number + 1
  else if s.sth.start ≤ t then s.sth.number
  else s.sth.number - 1

/-- The number that the stitch beginning at b of R46 would have, when a change of grid is pending: the first stitch of
the new grid carries it. -/
def State.changeNumber (s : State) (c : GridChange) : Nat :=
  s.sth.number + (c.origin - s.sth.start) / s.sth.period

/-- The start and the period of a stitch of a given number, past, present or to come, on the grid in force and the one
pending (R45, R46). -/
def State.stitchStart (s : State) (n : Nat) : Nat × Nat :=
  let old := (s.sth.start + n * s.sth.period - s.sth.number * s.sth.period, s.sth.period)
  match s.sth.change with
  | none => old
  | some c =>
    let k := if s.sth.gap then s.sth.number else s.changeNumber c
    if n < k then old else (c.origin + (n - k) * c.period, c.period)

/-- A time that lies a number of nanoseconds into a stitch, never past the end of its budget (R223, R287). -/
def State.inStitch (s : State) (n ns : Nat) : Nat :=
  let (a, p) := s.stitchStart n
  min (a + ns) (a + budgetNs p)

/-- Reset is held or the rails are down: no boundary falls and no unit runs (R45, R434). -/
def State.clockless (s : State) : Bool := s.pwr.inReset || s.pwr.state == .off || s.pwr.state == .rising

/-! ## Event records (R63 to R67) -/

def EvtLog.generalHeld (l : EvtLog) : Nat := (l.held.filter fun h => !h.kept).length
def EvtLog.keptHeld (l : EvtLog) : Nat := (l.held.filter fun h => h.kept).length

/-- Whether a record of a severity can be placed, and in which space (R67). -/
def EvtLog.space (l : EvtLog) (sev : Nat) : Option Bool :=
  if l.generalHeld < 64512 then some false
  else if 2 ≤ sev && decide (l.keptHeld < 1024) then some true
  else none

/-- Place a record or discard it (R67). -/
def EvtLog.place (e : Evt) (l : EvtLog) : EvtLog :=
  match l.space e.sev with
  | some k => { l with held := l.held ++ [⟨e, k, none⟩] }
  | none => { l with lost := sat32 (l.lost + 1)
                     lostFault := sat32 (l.lostFault + (if 2 ≤ e.sev then 1 else 0))
                     since := l.since + 1
                     sinceFault := l.sinceFault || decide (2 ≤ e.sev) }

/-- MIN_SEV of EVT_FILTER (R68). -/
def State.minSev (s : State) : Nat := bits (s.reg 0x3010C) 0 8

/-- Record an event (R63). Severities FAULT and FATAL are always recorded (R68). -/
def note (code sev time source job tag arg : Nat) (s : State) : State :=
  if sev < 2 && decide (sev < s.minSev) then s
  else onLog (EvtLog.place ⟨time, source, code, s.stitchAt time, job, sev, tag, arg % 2 ^ 32⟩) s

/-- EVT_LOSS at the first moment it can be placed after a discard (R67). -/
def placeLoss (s : State) : State :=
  let sev := if s.log.sinceFault then 2 else 1
  if s.log.since == 0 || (sev == 1 && decide (sev < s.minSev)) then s
  else match s.log.space sev with
    | some k => onLog (fun l => { l with
        held := l.held ++ [⟨⟨s.tsc.now, srcLog, 0x0109, s.stitchAt s.tsc.now, 0, sev, 0, l.since % 2 ^ 32⟩, k, none⟩]
        since := 0
        sinceFault := false }) s
    | none => s

/-- A detected fault: SPR_FAULT and SPR_LAST (R345, R371). -/
def noteFault (code src : Nat) (s : State) : State :=
  note 0x0600 2 s.tsc.now src 0 0 (code * 2 ^ 24 + src)
    (onSpr (fun r => { r with lastCode := code, lastSource := src, lastTime := s.tsc.now }) s)

/-! ## Ports and planes (R305 to R307) -/

/-- In service under R305. -/
def State.inService (s : State) (p : Nat) : Bool :=
  let cfg := s.reg (portAddr p 0x104)
  (s.port p).link && (s.port p).mode != 0 && bit cfg 31 && (!bit cfg 23 || (s.port p).secured)

/-- The in-service ports of a plane, ascending: 0 for A, 1 for B; reductions need all sixteen adder lanes (R359). -/
def State.planePorts (s : State) (plane : Nat) (reduction : Bool) : List Nat :=
  (upTo 4).filterMap fun i =>
    let p := 4 * plane + i
    if s.inService p && (!reduction || decide (16 ≤ (s.port p).lanes)) then some p else none

/-- The plane that carries a plane's traffic (R307). -/
def State.foldedPlane (s : State) (plane : Nat) (reduction : Bool) : Nat :=
  if s.planeLost.getD plane false || s.planeBack.getD plane false || (s.planePorts plane reduction).isEmpty
  then 1 - plane else plane

/-- The port for the i-th of a spread of messages on a plane (R306). -/
def State.spreadPort (s : State) (plane i : Nat) (reduction : Bool) : Option Nat :=
  let ps := s.planePorts (s.foldedPlane plane reduction) reduction
  if ps.isEmpty then none else ps[i % ps.length]?

/-- Bytes of a checkpoint stream that one DATA_PUSH to a session carries (R332). -/
def Session.pushSize (x : Session) : Nat := max 1 (x.maxp - 16)

/-- The port of a host session's messages, DATA_PUSH spread over plane A among them (R306). -/
def State.sessionPort (s : State) (x : Session) (body : Out) : Option Nat :=
  match body with
  | .dataPush _ offset _ => s.spreadPort 0 (offset / x.pushSize) false
  | _ =>
  if s.inService x.port then some x.port
  else match s.planePorts 0 false with
    | p :: _ => some p
    | [] => (s.planePorts 1 false).head?

/-! ## Sending (R313, R322, R323) -/

/-- This module's number (R314). -/
def State.modnum (s : State) : Nat := bits (s.reg 0x90100) 0 16

/-- A key slot of the protection map in force (R392). -/
def State.keySlot (s : State) (n : Nat) : KeySlot := s.sec.map.slots.getD n KeySlot.empty

/-- The fabric key is in use and the module has a number (R315). -/
def State.fabricOn (s : State) : Bool := bit (s.reg 0x90104) 3 && s.modnum != 0xFFFF

/-- The module at the other end of a module channel. -/
def State.peerOf (s : State) : Dest → Option Nat
  | .reduction m => some m
  | .borrow i => (s.borrow i).lender
  | .lent i => (s.lent i).borrower
  | _ => none

def chanReduction : Nat := 0xF0000000
def chanLending : Nat := 0xE0000000

/-- CHAN of R314. -/
def State.chanOf (s : State) : Dest → Nat
  | .session sid => sid
  | .reduction _ => chanReduction
  | .borrow i => chanLending + i
  | .lent i => chanLending + (s.lent i).chanId
  | .host _ | .link => 0

/-- The key of a channel's ICV (R314, R315). -/
def State.icvKey (s : State) : Dest → Option (List Byte)
  | .session sid => (s.session sid).map (·.ks)
  | .reduction _ | .borrow _ | .lent _ => some (fabricKey ((s.keySlot (bits (s.reg 0x90104) 0 3)).key.getD []))
  | .host _ | .link => none

/-- The bytes of a message as it leaves: to a host DST_MOD is 0xFFFF (R313; log entry 59). -/
def State.wire (s : State) (d : Dest) (seq : Option Nat) (retx : Bool) (body : Out) : List Byte :=
  match body.cls with
  | some c =>
    message (s.icvKey d)
      ⟨c, body.ackOf, retx, s.modnum, (s.peerOf d).getD 0xFFFF, s.chanOf d, seq.getD 0, body.payload.length⟩ body.payload
  | none => []

/-- Put a frame on the wire: recorded, and counted by its port where one is in service. -/
def emit (port : Option Nat) (dest : Dest) (seq : Option Nat) (retx : Bool) (body : Out) (s : State) : State :=
  match port with
  | some p => onPort p (fun q => { q with tx := q.tx + 1 })
      { s with tx := s.tx ++ [⟨s.tsc.now, some p, dest, seq, retx, body, s.wire dest seq retx body⟩] }
  | none => s

/-- The sender's window of R323. -/
def Dest.window : Dest → Nat
  | .session _ => 256
  | .reduction _ => 1024
  | .borrow _ | .lent _ => 64
  | _ => 0

def State.unackedTo (s : State) (d : Dest) : Nat := (s.unacked.filter fun u => u.dest == d).length

/-- The peer table has a valid entry for a module on a plane, and the module's number is below COUNT as it now stands (R312). -/
def State.peerValid (s : State) (m plane : Nat) : Bool :=
  decide (m < bits (s.reg 0x90110) 0 16) && match s.peers[m]? with
    | some e => bit (e.getD 0x0C 0).toNat plane
    | none => false

/-- EDG_PEER_ERR, once per reload (R312). -/
def peerError (m : Nat) (s : State) : State :=
  if s.peerErr.contains m then s
  else note 0x050D 1 s.tsc.now srcFirmware 0 0 m { s with peerErr := m :: s.peerErr }

/-- Send to a module from its own plane: B for reductions, A for lending (R306, R312). -/
def transmitModule (d : Dest) (plane : Nat) (red : Bool) (seq : Option Nat) (retx : Bool) (body : Out) (s : State) : State :=
  match s.peerOf d with
  | some m =>
    if !s.fabricOn then s
    else if s.peerValid m (s.foldedPlane plane red) then emit (s.spreadPort plane m red) d seq retx body s else peerError m s
  | none => s

/-- Send or send again on a channel: the port by R306, or nothing where no port or no peer entry serves. -/
def transmit (d : Dest) (seq : Option Nat) (retx : Bool) (body : Out) (s : State) : State :=
  match d with
  | .session sid => match s.session sid with
    | some x => emit (s.sessionPort x body) d seq retx body s
    | none => s
  | .reduction _ => transmitModule d 1 true seq retx body s
  | .borrow _ | .lent _ => transmitModule d 0 false seq retx body s
  | .host _ | .link => s

def Chan.bump (c : Chan) : Chan := { c with txNext := (c.txNext + 1) % 2 ^ 32 }

/-- The reduction channel to a module. -/
def State.red (s : State) (m : Nat) : Chan := ((s.reds.find? fun r => r.1 == m).map (·.2)).getD Chan.reset

def onRed (m : Nat) (f : Chan → Chan) (s : State) : State :=
  if s.reds.any fun r => r.1 == m then { s with reds := updateWhere (fun r => r.1 == m) (fun r => (r.1, f r.2)) s.reds }
  else { s with reds := s.reds ++ [(m, f Chan.reset)] }

/-- The state of a channel (R322). -/
def State.chan (s : State) : Dest → Chan
  | .session sid => ((s.session sid).map (·.chan)).getD Chan.reset
  | .reduction m => s.red m
  | .borrow i => (s.borrow i).chan
  | .lent i => (s.lent i).chan
  | _ => Chan.reset

def onChan (d : Dest) (f : Chan → Chan) (s : State) : State :=
  match d with
  | .session sid => onSession sid (fun x => { x with chan := f x.chan }) s
  | .reduction m => onRed m f s
  | .borrow i => onBorrow i (fun b => { b with chan := f b.chan }) s
  | .lent i => onLent i (fun l => { l with chan := f l.chan }) s
  | _ => s

/-- Send a sequenced message now: number it, keep it until acknowledged, transmit it (R322, R323). -/
def sendNow (d : Dest) (body : Out) (s : State) : State :=
  let q := (s.chan d).txNext
  transmit d (some q) false body
    { onChan d Chan.bump s with unacked := s.unacked ++ [⟨d, q, body, s.tsc.now, s.tsc.now, 0⟩] }

/-- Send on a module channel: within the window at once, beyond it when the window opens (R323). -/
def sendModule (d : Dest) (body : Out) (s : State) : State :=
  if (s.queued.all fun q => q.1 != d) && decide (s.unackedTo d < d.window) then sendNow d body s
  else { s with queued := s.queued ++ [(d, body)] }

/-- Send queued messages of a module channel while the window has room; `fuel` bounds them. -/
def flushModule (d : Dest) : (fuel : Nat) → State → State
  | 0, s => s
  | fuel + 1, s =>
    match s.queued.find? fun q => q.1 == d with
    | some (_, m) =>
      if s.unackedTo d < d.window then
        flushModule d fuel (sendNow d m { s with queued := s.queued.eraseP fun q => q.1 == d })
      else s
    | none => s

/-- Send to a host session: within the window at once, beyond it when the window opens. A lingering session's messages
are held (R321). -/
def sendSession (sid : Nat) (body : Out) (s : State) : State :=
  match s.session sid with
  | some x =>
    if x.phase == .open_ && x.waiting.isEmpty && decide (s.unackedTo (.session sid) < 256) then sendNow (.session sid) body s
    else if x.phase == .pending then s
    else onSession sid (fun x => { x with waiting := x.waiting ++ [body] }) s
  | none => s

/-- Send waiting messages while the window has room; `fuel` bounds them. -/
def flushWaiting (sid : Nat) : (fuel : Nat) → State → State
  | 0, s => s
  | fuel + 1, s =>
    match s.session sid with
    | some x =>
      match x.waiting with
      | m :: rest =>
        if x.phase == .open_ && decide (s.unackedTo (.session sid) < 256) then
          flushWaiting sid fuel (sendNow (.session sid) m (onSession sid (fun x => { x with waiting := rest }) s))
        else s
      | [] => s
    | none => s

/-- An ACK message: it consumes no SEQ, and its SEQ field holds the next one (R322). -/
def sendAck (d : Dest) (next : Nat) (s : State) : State := transmit d (some (s.chan d).txNext) false (.ack next) s

/-! ## Event delivery (R335) -/

/-- Whether a session's filters let a record through. -/
def Session.admits (x : Session) (e : Evt) : Bool :=
  match x.sub with
  | some m => decide (m ≤ e.sev) && (x.cls != 2 || e.job == x.job)
  | none => false

/-- The running numbers of event records carried by a message. -/
def Out.evtSeqs : Out → List Nat
  | .event rs => rs.map (·.seq)
  | _ => []

/-- Records of one EVENT message within MAXP. -/
def Session.evtBatch (x : Session) : Nat := max 1 (min 255 ((x.maxp - 8) / 32))

/-- Send a subscribed session the sequenced records it has not been sent, in SEQ order; held while the firmware restarts
(R345). -/
def evtPump (sid : Nat) (s : State) : State :=
  match s.session sid with
  | some x =>
    if x.sub.isNone || s.fwDown.isSome then s else
    let news := (s.log.held.filterMap fun h => match h.seq with
      | some q => if x.evtNext ≤ q && x.admits h.evt then some (⟨q, h.evt⟩ : EvtOut) else none
      | none => none).foldl (fun rs r => insertBy (fun a b => decide (a.seq < b.seq)) r rs) []
    forEach (chunks x.evtBatch news.length news) (fun rs s => sendSession sid (.event rs) s)
      (onSession sid (fun x => { x with evtNext := s.log.next }) s)
  | none => s

def evtPumpAll (s : State) : State := forEach (s.sessions.map (·.sid)) evtPump s

/-- A subscribed session has acknowledged a record in the sense of R335. -/
def State.evtAcked (s : State) (x : Session) (q : Nat) (e : Evt) : Bool :=
  !x.admits e ||
    (decide (q < x.evtNext)
      && !(s.unacked.any fun u => u.dest == .session x.sid && u.body.evtSeqs.contains q)
      && !(x.waiting.any fun m => m.evtSeqs.contains q))

/-- Records leave once at least one session is subscribed and every subscribed one has acknowledged them (R67); a
lingering session still takes part. EVT_LOSS is then placed if it waited for room. -/
def evtSweep (s : State) : State :=
  let subs := s.sessions.filter fun x => x.sub.isSome && x.phase != .pending
  if subs.isEmpty then placeLoss s
  else placeLoss (onLog (fun l => { l with held := l.held.filter fun h => match h.seq with
    | some q => !(subs.all fun x => s.evtAcked x q h.evt)
    | none => true }) s)

end Sys2Proof.Machine
end

