-- ==== Sys2Proof/Machine/Flags.lean ====
section
/-! DEFINITION. Counters and sticky errors: the issue error registers (R117, R155, R193), the counter sets (R137, R176)
and the fallback threshold (R265). -/

namespace Sys2Proof.Machine

/-- An error counted, the first since the last clear recorded (R117, R155, R193). -/
def ErrReg.add (code ctx pc : Nat) (e : ErrReg) : ErrReg :=
  if e.err then { e with count := sat16 (e.count + 1) }
  else ⟨true, code, sat16 (e.count + 1), ctx, pc⟩

/-- A write of one to ERR clears ERR, CODE and COUNT together; the offset is kept. -/
def ErrReg.clear (e : ErrReg) : ErrReg := { e with err := false, code := 0, count := 0, ctx := 0 }

/-- An operation's counts added to a drain counter set, each saturating (R137). -/
def DrnCnt.merge (a b : DrnCnt) : DrnCnt where
  zeroed := sat32 (a.zeroed + b.zeroed)
  saturated := sat32 (a.saturated + b.saturated)
  outInf := sat32 (a.outInf + b.outInf)
  outNan := sat32 (a.outNan + b.outNan)
  fallback := sat32 (a.fallback + b.fallback)
  emptyRows := sat32 (a.emptyRows + b.emptyRows)
  nanRows := sat32 (a.nanRows + b.nanRows)

def Cluster.addDrn (set op : Nat) (n : DrnCnt) (c : Cluster) : Cluster :=
  if op < c.drnMark.getD set 0 then c else { c with drn := setAt c.drn set ((c.drn.getD set {}).merge n) }

/-- The operations at the head of their sets whose counts are whole enter them, each set in issue order (R138); `rest` are
the entries that stay. -/
def Cluster.settleDrn (c : Cluster) : List DrnOpen → List DrnOpen → Cluster
  | rest, [] => { c with drnOpen := rest }
  | rest, e :: es =>
    if e.left == .nothing && !(rest.any fun r => r.set == e.set) then (c.addDrn e.set e.op e.cnt).settleDrn rest es
    else c.settleDrn (rest ++ [e]) es

/-- Counts of an operation: part of what it adds to its set, which shows them once the operation is whole and those before
it have entered the set (R138). -/
def Cluster.countDrn (set op cmd : Nat) (n : DrnCnt) (left : DrnLeft) (c : Cluster) : Cluster :=
  let mine := fun (e : DrnOpen) => e.op == op
  c.settleDrn [] (if c.drnOpen.any mine then
      updateWhere mine (fun e => { e with cnt := e.cnt.merge n, left := left }) c.drnOpen
    else c.drnOpen ++ [⟨op, set, cmd, n, left⟩])

/-- A command's work leaves the cluster: an operation not yet emitted adds nothing, a tile still behind the tap is discarded
and its counts stand as they would under QUEUE (R160, R161). -/
def Cluster.dropDrn (id : Nat) (c : Cluster) : Cluster :=
  c.settleDrn [] ((c.drnOpen.filter fun e => !(e.cmd == id && e.left == .emission)).map fun e =>
    if e.cmd == id then { e with left := .nothing } else e)

/-- A pass's counts added to a chain counter set (R176). -/
def Cluster.addLch (set op : Nat) (n : LchCnt) (c : Cluster) : Cluster :=
  if op < c.lchMark.getD set 0 then c else { c with lch := setAt c.lch set ((c.lch.getD set {}).merge n) }

/-- The sets a clear register names are cleared, SUMSQ and MAXABS to +0 (R137, R180). -/
def clearSets {α : Type} (zero : α) (mask : Nat) (xs : List α) : List α :=
  xs.mapIdx fun i x => if bit mask i then zero else x

/-- A write of DRN_CNT_CLEAR or LCH_CNT_CLEAR is ordered after every operation issued before it: the sets are zero, and
what operations issued before still count in them is cleared with them. -/
def Cluster.clearDrn (mask : Nat) (c : Cluster) : Cluster :=
  { c with drn := clearSets {} mask c.drn, drnMark := clearSets c.opNext mask c.drnMark }
def Cluster.clearLch (mask : Nat) (c : Cluster) : Cluster :=
  { c with lch := clearSets {} mask c.lch, lchMark := clearSets c.opNext mask c.lchMark }

/-- SAT_T of TRN_FB_THRESH (R265). -/
def State.satT (s : State) : Nat := bits (s.reg 0x60100) 0 6
/-- ZERO_T of TRN_FB_THRESH (R265). -/
def State.zeroT (s : State) : Nat := bits (s.reg 0x60100) 8 6

/-- The comparison of R265 on the counts of one encoded block. -/
def State.fallsBack (s : State) (saturated zeroed : Nat) : Bool := passesThreshold s.satT s.zeroT saturated zeroed

/-- The words of a drain counter set as DRN_CNT_c shows them (R145). -/
def DrnCnt.word (c : DrnCnt) : Nat → Nat
  | 0 => c.zeroed
  | 1 => c.saturated
  | 2 => c.outInf
  | 3 => c.outNan
  | 4 => c.fallback
  | 5 => c.emptyRows
  | 6 => c.nanRows
  | _ => 0

/-- The words of a chain counter set as LCH_CNT_c shows them (R180). -/
def lchWord (c : LchCnt) : Nat → Nat
  | 0 => c.invalid
  | 1 => c.divzero
  | 2 => c.overflow
  | 3 => c.underflow
  | 4 => c.nanIn
  | 5 => c.zeroed
  | 6 => c.saturated
  | 7 => c.permRange
  | 8 => c.fallback
  | 9 => c.infCount
  | 10 => c.nanCount
  | 11 => c.count
  | 12 => c.sumsq % 2 ^ 32
  | 13 => c.sumsq / 2 ^ 32
  | 14 => c.maxabs % 2 ^ 32
  | 15 => c.maxabs / 2 ^ 32
  | _ => 0

/-- A watched counter has risen since it was latched, or reads 0xFFFF_FFFF (R245). -/
def risen (old now : Nat) : Bool := decide (old < now) || now == 0xFFFFFFFF

/-- INF_COUNT, NAN_COUNT, OVERFLOW and NAN_IN of a chain set (R245). -/
def lchRisen (old now : LchCnt) : Bool :=
  risen old.infCount now.infCount || risen old.nanCount now.nanCount || risen old.overflow now.overflow
    || risen old.nanIn now.nanIn

/-- OUT_INF and OUT_NAN of a drain set (R245). -/
def drnRisen (old now : DrnCnt) : Bool := risen old.outInf now.outInf || risen old.outNan now.outNan

end Sys2Proof.Machine
end

