-- ==== Sys2Proof/Machine/Operands.lean ====
section
/-! DEFINITION. Device-memory and tile-store operands: the page map, reads as their reader meets them (absent pages,
poison, stand-ins), writes on their way to a tier, tile layout and tensor layout. -/

namespace Sys2Proof.Machine

/-! ## The page map (R208 to R212) -/

def pageSize : Nat := 2097152
def pageOf (a : Nat) : Nat := a / pageSize
/-- The last page of the device range (R208). -/
def lastPage : Nat := 33554431

def Page.unmapped : Page := ⟨.unmapped, 0, .t1, [], false, false, [], none, [], false, [], false, 0, [], []⟩

def State.page (s : State) (p : Nat) : Page := readAt Page.unmapped s.pages p

def setPage (p : Nat) (v : Page) (s : State) : State := { s with pages := writeAt Page.unmapped s.pages p v }

def onPage (p : Nat) (f : Page → Page) (s : State) : State := setPage p (f (s.page p)) s

/-! ### Hints (R212) -/

def hintPin (h : Nat) : Bool := bit h 15
def hintRo (h : Nat) : Bool := bit h 14
def hintOnce (h : Nat) : Bool := bit h 13
def hintPrefer (h : Nat) : Nat := bits h 10 3
/-- TREE where AFF is set. -/
def hintTree (h : Nat) : Option Nat := if bit h 9 then some (bits h 7 2) else none

/-- A page whose data programs may read: mapped, and not LOADING (R209, R238). -/
def Page.inTier (p : Page) : Bool := p.kind != .unmapped && !p.loading

/-- LIBRARY, LENT, or WRITABLE with RO set (R210). -/
def Page.readOnly (p : Page) : Bool :=
  match p.kind with
  | .library | .lent => true
  | .writable => hintRo p.hint
  | .unmapped => false

/-- The page's data or a copy lies in T0 to T2 (R219). -/
def Page.present (p : Page) : Bool :=
  match p.kind with
  | .writable => true
  | .unmapped => false
  | _ => !p.copies.isEmpty

/-- The pages that bytes a to a + n - 1 touch. -/
def pagesOf (a n : Nat) : List Nat :=
  if n == 0 then [] else (upTo (pageOf (a + n - 1) + 1 - pageOf a)).map (· + pageOf a)

/-- Every byte lies in a mapped page of a tier (R193, R208). -/
def State.inTier (s : State) (a n : Nat) : Bool :=
  (pagesOf a n).all fun p => decide (p ≤ lastPage) && (s.page p).inTier

def State.inWritable (s : State) (a n : Nat) : Bool :=
  (pagesOf a n).all fun p => decide (p ≤ lastPage) && (s.page p).kind == .writable

/-- The 32-byte units that bytes a to a + n - 1 touch (R355). -/
def unitsOf (a n : Nat) : List Nat :=
  if n == 0 then [] else (upTo ((a + n - 1) / 32 + 1 - a / 32)).map (· + a / 32)

def State.poisoned (s : State) (a n : Nat) : Bool :=
  decide (0 < n) && s.poison.any fun u => decide (a / 32 ≤ u) && decide (u ≤ (a + n - 1) / 32)

/-- Bytes of device memory as they stand. -/
def State.devBytes (s : State) (a n : Nat) : List Byte := readBytes s.dev a n
def State.devNum (s : State) (a n : Nat) : Nat := ofLE (s.devBytes a n)

/-- A structure that the device itself must read or write lies in tiers and meets no poison (R443). -/
def State.usable (s : State) (a n : Nat) : Bool := s.inTier a n && !s.poisoned a n

/-! ## Tensor and tile layout (R80, R81, R197) -/

/-- How a tensor's elements are stored. -/
inductive TFmt where
  | blk (b : Blk)
  | kx16
  | f32
  deriving DecidableEq, Repr

/-- FMT as R116 codes it. -/
def TFmt.ofFmt : Nat → Option TFmt
  | 0 => some (.blk .kx4)
  | 1 => some (.blk .kx6)
  | 2 => some (.blk .kx8)
  | 3 => some .kx16
  | 4 => some .f32
  | _ => none

/-- A format as SRC of R153 codes it; binary64 and binary16 name no tensor format of the saddlebag or a prefetcher. -/
def TFmt.ofSrc : Nat → Option TFmt
  | 0 => some .f32
  | 3 => some .kx16
  | 4 => some (.blk .kx8)
  | 5 => some (.blk .kx6)
  | 6 => some (.blk .kx4)
  | _ => none

/-- Width in the order of R222: KX4, KX6, KX8, KX16, binary32. -/
def TFmt.width : TFmt → Nat
  | .blk .kx4 => 0
  | .blk .kx6 => 1
  | .blk .kx8 => 2
  | .kx16 => 3
  | .f32 => 4

/-- Bytes of a tensor of whole lines. -/
def TFmt.size (f : TFmt) (lines klen : Nat) : Nat :=
  match f with
  | .blk b => ceilDiv (lines * ceilDiv klen 32) 32 * b.group
  | .kx16 => 2 * lines * klen
  | .f32 => 4 * lines * klen

/-- The exact value a stored binary32 or code holds. -/
def TFmt.value (f : TFmt) (sc code : Nat) : XVal :=
  match f with
  | .blk b => b.value sc code
  | .kx16 => kx16Value code
  | .f32 => .ofF (decodeF b32 code)

/-- Scale byte and code of element k of line l, through a byte read. -/
def TFmt.elem (f : TFmt) (rd : Nat → Nat → List Byte) (base klen l k : Nat) : Nat × Nat :=
  match f with
  | .blk b =>
    let n := l * ceilDiv klen 32 + k / 32
    let (so, co) := b.place n
    (ofLE (rd (base + so) 1), b.unpack (rd (base + co) b.bytes) (k % 32))
  | .kx16 => (0, ofLE (rd (base + 2 * (l * klen + k)) 2))
  | .f32 => (0, ofLE (rd (base + 4 * (l * klen + k)) 4))

/-! ## Stand-ins (R226, R227) -/

/-- A piece of a region: the block or element that a byte belongs to, and where in the piece's bytes it stands. -/
def regionPiece (f : TFmt) (o : Nat) : Nat × Nat :=
  match f with
  | .blk b =>
    let g := o / b.group
    let r := o % b.group
    if r < 32 then (32 * g + r, 0) else (32 * g + (r - 32) / b.bytes, 1 + (r - 32) % b.bytes)
  | .kx16 => (o / 2, o % 2)
  | .f32 => (o / 4, o % 4)

/-- The bytes of one piece served from a stand-in (scale byte first for a block), with zeroings and saturations. -/
def standinPiece (s : State) (w : Window) (f g : TFmt) (sat : Bool) (n : Nat) : List Byte × Nat × Nat :=
  let rd := fun a k => s.devBytes a k
  let val (l k : Nat) : XVal := let (sc, c) := g.elem rd w.standin w.klen l k; g.value sc c
  let lines := match f with
    | .blk b => if w.klen == 0 then 0 else w.len / b.group * 32 / ceilDiv w.klen 32
    | _ => 0
  match f with
  | .blk b =>
    let bpl := ceilDiv w.klen 32
    let l := n / bpl
    let j := n % bpl
    let xs := (upTo 32).map fun i => if l < lines && 32 * j + i < w.klen then val l (32 * j + i) else XVal.zero
    let e := encodeBlock b sat xs
    (leBytes 1 e.scale ++ b.pack e.codes, e.zeroed, e.saturated)
  | .kx16 => let e := encodeKx16 sat (val (n / w.klen) (n % w.klen)); (leBytes 2 e.code, e.zeroed, e.saturated)
  | .f32 => (leBytes 4 (encodeF b32 ((val (n / w.klen) (n % w.klen)).toF b32)), 0, 0)

/-- The bytes of the stand-in that a piece is converted from; a padding block has none. -/
def standinRanges (w : Window) (f g : TFmt) (n : Nat) : List (Nat × Nat) :=
  let place := fun (l k : Nat) => match g with
    | .blk b => let (so, co) := b.place (l * ceilDiv w.klen 32 + k / 32)
                [(w.standin + so, 1), (w.standin + co, b.bytes)]
    | .kx16 => [(w.standin + 2 * (l * w.klen + k), 2)]
    | .f32 => [(w.standin + 4 * (l * w.klen + k), 4)]
  match f with
  | .blk b =>
    let bpl := ceilDiv w.klen 32
    if n / bpl < (if w.klen == 0 then 0 else w.len / b.group * 32 / bpl) then place (n / bpl) (32 * (n % bpl)) else []
  | _ => place (n / w.klen) (n % w.klen)

/-- A unit of the stand-in that n bytes from offset o are served from holds no value (R227, R355). -/
def State.standinPoisoned (s : State) (w : Window) (o n : Nat) : Bool :=
  match TFmt.ofSrc w.fmt, TFmt.ofSrc w.sfmt with
  | some f, some g => !s.poison.isEmpty && (upTo n).any fun i =>
      (standinRanges w f g (regionPiece f (o + i)).1).any fun r => s.poisoned r.1 r.2
  | _, _ => false

/-- The bytes of the region at offset o that lie in the same piece, at most n of them, from a served piece. -/
def standinBytes (s : State) (w : Window) (f g : TFmt) (sat : Bool) :
    (o n : Nat) → Option (Nat × List Byte) → List Byte × Nat × Nat
  | _, 0, _ => ([], 0, 0)
  | o, n + 1, cache =>
    let (pc, i) := regionPiece f o
    let (bytes, z, t) := match cache with
      | some (k, bs) => if k == pc then (bs, 0, 0) else standinPiece s w f g sat pc
      | none => standinPiece s w f g sat pc
    let (rest, z', t') := standinBytes s w f g sat (o + 1) n (some (pc, bytes))
    (bytes.getD i 0 :: rest, z + z', t + t')

/-- The windows open for a job's reads of a byte, with their slots (R226). -/
def State.openWindows (s : State) (job a : Nat) : List (Nat × Window) :=
  (upTo 16).flatMap fun n =>
    let c := s.sched n
    if c.on && c.job == job then
      (c.windows.filter fun w => w.decided && decide (w.addr ≤ a) && decide (a < w.addr + w.len)
        && decide (s.sth.number ≤ c.stitch0 + w.stitchRel + w.hold)).map fun w => (n, w)
    else []

/-- The window that decides a read of a byte: earliest deadline, then lower slot, then lower entry (R226). -/
def State.windowAt (s : State) (job a : Nat) : Option (Nat × Window) :=
  (s.openWindows job a).foldl (fun best c => match best with
    | none => some c
    | some b =>
      if c.2.deadline < b.2.deadline || (c.2.deadline == b.2.deadline &&
          (decide (c.1 < b.1) || (c.1 == b.1 && decide (c.2.entry < b.2.entry)))) then some c else some b) none

/-- The stand-in that serves a job's read of a byte, if one does: read-only bytes under STANDIN. -/
def State.standinAt (s : State) (job a : Nat) : Option Window :=
  match s.windowAt job a with
  | some (_, w) => if w.outcome == .standin && (s.page (pageOf a)).readOnly then some w else none
  | none => none

/-! ## Reads of a command (R193, R226 to R228, R355) -/

/-- How a read of device memory by a command is met. -/
inductive Served where
  | noTier
  | poison
  | wait (page : Nat)
  | bytes (bs : List Byte) (standin : Bool) (zeroed saturated : Nat)
  deriving DecidableEq, Repr

/-- Serve bytes one run at a time: `runs` are (address, length, stand-in). -/
def serveRuns (s : State) (sat : Bool) : List (Nat × Nat × Option Window) → Served
  | [] => .bytes [] false 0 0
  | (a, n, w) :: rest =>
    match serveRuns s sat rest with
    | .bytes bs si z t =>
      match w with
      | some w =>
        if s.standinPoisoned w (a - w.addr) n then .poison
        else match TFmt.ofSrc w.fmt, TFmt.ofSrc w.sfmt with
        | some f, some g =>
          let (xs, z', t') := standinBytes s w f g sat (a - w.addr) n none
          .bytes (xs ++ bs) true (z + z') (t + t')
        | _, _ => .bytes (s.devBytes a n ++ bs) si z t
      | none =>
        if s.poisoned a n then .poison
        else match (pagesOf a n).find? fun p => !(s.page p).present with
          | some p => .wait p
          | none => .bytes (s.devBytes a n ++ bs) si z t
    | .poison => .poison
    | other =>
      match w with
      | some w => if s.standinPoisoned w (a - w.addr) n then .poison else other
      | none => if s.poisoned a n then .poison else other

/-- Join neighbouring bytes served alike. -/
def joinRun (a : Nat) (w : Option Window) : List (Nat × Nat × Option Window) → List (Nat × Nat × Option Window)
  | (b, n, v) :: rest => if v = w then (a, n + 1, w) :: rest else (a, 1, w) :: (b, n, v) :: rest
  | [] => [(a, 1, w)]

def runsOf (s : State) (job : Nat) : (a n : Nat) → List (Nat × Nat × Option Window)
  | _, 0 => []
  | a, n + 1 => joinRun a (s.standinAt job a) (runsOf s job (a + 1) n)

/-- A command's read of n bytes at a device address. -/
def State.serve (s : State) (job a n : Nat) : Served :=
  if !s.inTier a n then .noTier
  else if s.scheds.any fun c => c.on && c.job == job && c.windows.any fun w => w.outcome == .standin
  then serveRuns s (bit (s.reg 0x50140) 0) (runsOf s job a n)
  else serveRuns s false [(a, n, none)]

/-! ## Borrowed pages (R232, R338) -/

/-- Ask the lender for the next part of a page being copied here, while the window has room; `fuel` bounds the parts. -/
def askLent (i page : Nat) : (fuel : Nat) → State → State
  | 0, s => s
  | fuel + 1, s =>
    let b := s.borrow i
    match b.fetches.find? fun f => f.1 == page, (s.page page).lender with
    | some (_, off, _), some (_, laddr) =>
      if off < pageSize && decide (s.unackedTo (.borrow i) < 64) then
        let n := min 8160 (pageSize - off)
        askLent i page fuel (sendNow (.borrow i) (.lendRead (laddr + off) n b.nextTag)
          (onBorrow i (fun b => { b with
            nextTag := (b.nextTag + 1) % 2 ^ 32
            fetches := updateWhere (fun f => f.1 == page) (fun f => (f.1, off + n, f.2.2)) b.fetches
            waits := b.waits ++ [⟨b.nextTag, laddr + off, n, s.tsc.now⟩] }) s))
      else s
    | _, _ => s

/-- A lender given up for lost is tried again (R232): what it has not acknowledged is sent again, and its 2 ms begin anew. -/
def tryLender (i : Nat) (s : State) : State :=
  if !(s.borrow i).lost then s
  else
    let mine := s.unacked.filter fun u => u.dest == .borrow i
    forEach mine (fun u s => transmit (.borrow i) (some u.seq) true u.body s)
      (onBorrow i (fun b => { b with lost := false, waits := b.waits.map fun w => { w with sent := s.tsc.now } })
        { s with unacked := updateWhere (fun u => u.dest == .borrow i)
                   (fun u => { u with first := s.tsc.now, last := s.tsc.now, tries := 0 }) s.unacked })

/-- The saddlebag begins a copy of an absent page in a tier. For a LENT page it asks the lender (R219, R338). -/
def fetchTo (tier : Tier) (page : Nat) (s : State) : State :=
  let s := onPage page (fun g => if g.bound.contains tier then g else { g with bound := g.bound ++ [tier] }) s
  match (s.page page).lender with
  | some (i, _) =>
    if (s.borrow i).fetches.any fun f => f.1 == page then tryLender i s
    else askLent i page 64 (onBorrow i (fun b => { b with fetches := b.fetches ++ [(page, 0, 0)] }) s)
  | none => s

/-- A read waits for a copy in T1 (R219). -/
def fetchPage (page : Nat) (s : State) : State := fetchTo .t1 page s

/-- Note that pages were read or written in the stitch (R219). -/
def usePages (a n : Nat) (s : State) : State := forEach (pagesOf a n) (fun p => onPage p fun g => { g with used := true }) s

def writePages (a n : Nat) (s : State) : State :=
  forEach (pagesOf a n) (fun p => onPage p fun g => { g with used := true, wrote := true }) s

/-- Drop copies made for a stream-once page after the read it served (R212); pinned pages never have ONCE. -/
def dropOnce (a n : Nat) (s : State) : State :=
  forEach ((pagesOf a n).filter fun p => hintOnce (s.page p).hint && (s.page p).kind != .writable)
    (fun p => onPage p fun g => { g with copies := [] }) s

/-! ## Writes on their way (R25, R202, R210) -/

/-- A write of bytes a to a + n - 1 by a program may go: every page is WRITABLE without RO (R210). -/
def State.writable (s : State) (a n : Nat) : Bool :=
  (pagesOf a n).all fun p => decide (p ≤ lastPage) && (s.page p).kind == .writable && !hintRo (s.page p).hint

/-- Issue a write. -/
def issueWrite (a : Nat) (bs : List Byte) (cluster : Option (Nat × Nat × Nat)) (cmd : Option Nat)
    (host : Option (Nat × Nat)) (s : State) : State :=
  { s with writes := s.writes ++ [⟨s.nextWrite, a, bs, cluster, cmd, host⟩], nextWrite := s.nextWrite + 1 }

/-- Units wholly covered by a write: their poison is cleared (R355). -/
def coveredUnits (a n : Nat) : List Nat := (unitsOf a n).filter fun u => decide (a ≤ 32 * u) && decide (32 * u + 32 ≤ a + n)

/-- The bytes reach memory. -/
def putBytes (a : Nat) (bs : List Byte) (s : State) : State :=
  { s with dev := writeBytes s.dev a bs
           poison := s.poison.filter fun u => !(coveredUnits a bs.length).contains u }

/-- The pages a write touches that a checkpoint still protects (R272, R369). -/
def State.ckpBlocks (s : State) (a n : Nat) : Bool := (pagesOf a n).any fun p => s.ckp.pages.contains p

/-- Pages the copy buffer holds (R368). -/
def State.ckpBuffer (s : State) : Nat := bits (s.reg 0xB0124) 0 16 / 2

def overlap (a n b m : Nat) : Bool := decide (a < b + m) && decide (b < a + n) && decide (0 < n) && decide (0 < m)

/-- A write of the device itself, that of no program and no session. -/
def DevWrite.own (w : DevWrite) : Bool := w.cluster.isNone && w.host.isNone

/-- A write of the device's own must wait as any first write does: for a release in host-assisted mode (R369), for room in
the copy buffer (R368), and behind one of its own writes to the same bytes. -/
def State.hubWaits (s : State) (a n : Nat) : Bool :=
  (s.ckp.phase == .waiting && s.ckpBlocks a n)
    || (s.ckp.phase == .streaming && s.ckpBlocks a n
        && decide (s.ckpBuffer < s.ckp.copied.length + ((pagesOf a n).filter fun p => s.ckp.pages.contains p).length))
    || s.writes.any fun w => w.own && overlap w.addr w.bytes.length a n

/-- Several such writes, done together, must wait: one of them must, or the copy buffer has no room for all the captured
pages they touch. -/
def State.hubWaitsAll (s : State) (rs : List (Nat × Nat)) : Bool :=
  let hit := ((rs.flatMap fun r => pagesOf r.1 r.2).eraseDups).filter fun p => s.ckp.pages.contains p
  rs.any (fun r => s.hubWaits r.1 r.2)
    || (s.ckp.phase == .streaming && !hit.isEmpty && decide (s.ckpBuffer < s.ckp.copied.length + hit.length))

/-- The device can write a structure of its own: it lies in WRITABLE pages, the only ones that the device writes, and in no
poisoned unit (R209, R210, R443; log entry 76). -/
def State.settable (s : State) (a n : Nat) : Bool := s.inWritable a n && !s.poisoned a n

/-- The device's own write of a structure in device memory. A captured page it touches is copied first (R368). -/
def hubWrite (a : Nat) (bs : List Byte) (s : State) : State :=
  if s.hubWaits a bs.length then issueWrite a bs none none none s
  else
    let hit := (pagesOf a bs.length).filter fun p => s.ckp.pages.contains p
    putBytes a bs (onCkp (fun c => { c with pages := c.pages.filter fun p => !hit.contains p, copied := c.copied ++ hit }) s)

/-- Poison one unit (R355). -/
def poisonUnit (u : Nat) (s : State) : State := if s.poison.contains u then s else { s with poison := s.poison ++ [u] }

/-! ## Tile store (R195) -/

def tsSize : Nat := 16777216

/-- The bytes of scratch: below the T0 part. -/
def Cluster.scratch (c : Cluster) : Nat := tsSize - 1024 * c.t0Kib

def Cluster.tsBytes (c : Cluster) (a n : Nat) : List Byte := readBytes c.ts a n
def Cluster.tsNum (c : Cluster) (a n : Nat) : Nat := ofLE (c.tsBytes a n)
def Cluster.putTs (a : Nat) (bs : List Byte) (c : Cluster) : Cluster := { c with ts := writeBytes c.ts a bs }

end Sys2Proof.Machine
end

