-- ==== Sys2Proof/Machine/GirthCore.lean ====
section
/-! DEFINITION. The girth engine (R276 to R300): groups, the tree of additions, instances and their progress, and the
buckle signals that trigger them (R200 to R202). -/

namespace Sys2Proof.Machine

/-! ## Groups (R276, R277, R302) -/

def grpAddr (g off : Nat) : Nat := hubAddr 8 (0x400 + 0x80 * g + off)

/-- A group's registers. -/
structure GCfg where
  on : Bool
  forced : Bool
  job : Nat
  nrank : Nat
  rank : Nat
  teamsz : Nat
  members : Nat
  table : Nat
  entries : Nat
  graceNs : Nat
  voteNs : Nat
  failNs : Nat
  mlog : Nat
  mlogSize : Nat
  dir : Nat
  dirLen : Nat
  deriving DecidableEq, Repr

def State.gcfg (s : State) (g : Nat) : GCfg where
  on := bit (s.reg (grpAddr g 0x00)) 31
  forced := bit (s.reg (grpAddr g 0x00)) 30
  job := bits (s.reg (grpAddr g 0x00)) 0 16
  nrank := bits (s.reg (grpAddr g 0x04)) 16 16
  rank := bits (s.reg (grpAddr g 0x04)) 0 12
  teamsz := bits (s.reg (grpAddr g 0x08)) 0 4
  members := s.reg64 (grpAddr g 0x0C)
  table := s.reg64 (grpAddr g 0x14)
  entries := bits (s.reg (grpAddr g 0x1C)) 0 12
  graceNs := 1000 * bits (s.reg (grpAddr g 0x20)) 16 16
  voteNs := 1000 * bits (s.reg (grpAddr g 0x20)) 0 16
  failNs := 1000 * s.reg (grpAddr g 0x24)
  mlog := s.reg64 (grpAddr g 0x28)
  mlogSize := s.reg (grpAddr g 0x30)
  dir := s.reg64 (grpAddr g 0x38)
  dirLen := s.reg (grpAddr g 0x40)

/-- The enabled group that serves a job. -/
def State.groupOf (s : State) (job : Nat) : Option Nat :=
  posOf (fun g => (s.gcfg g).on && (s.gcfg g).job == job) (upTo 16)

/-- The module number of a rank (R276). -/
def State.memberOf (s : State) (c : GCfg) (r : Nat) : Nat := s.devNum (c.members + 4 * r) 2

/-- The rank of a module. -/
def State.rankOf (s : State) (c : GCfg) (m : Nat) : Option Nat := posOf (fun r => s.memberOf c r == m) (upTo c.nrank)

/-- L of R286. -/
def GCfg.levels (c : GCfg) : Nat := if c.teamsz ≤ 1 then 0 else Nat.log2 (c.teamsz - 1) + 1
/-- T of R277. -/
def GCfg.teams (c : GCfg) : Nat := ceilDiv c.nrank c.teamsz
def GCfg.team (c : GCfg) : Nat := c.rank / c.teamsz
def GCfg.pos (c : GCfg) : Nat := c.rank % c.teamsz
/-- Ranks of this module's team. -/
def GCfg.size (c : GCfg) : Nat := min c.teamsz (c.nrank - c.team * c.teamsz)
/-- The root of the last team is the final module. -/
def GCfg.isFinal (c : GCfg) : Bool := c.pos == 0 && c.team + 1 == c.teams

/-- One remote operand a point holds: the rank that sends it, its depth, the ranks of its subtree, and whether it is the
left operand (the chain's acc). -/
structure Src where
  rank : Nat
  depth : Nat
  lo : Nat
  hi : Nat
  left : Bool
  deriving DecidableEq, Repr

/-- The remote operands at this module, in the order it adds them: team levels, then the chain (R284, R286). -/
def GCfg.srcs (c : GCfg) : List Src :=
  let base := c.team * c.teamsz
  let team := (upTo c.levels).filterMap fun l =>
    let p := c.pos + 2 ^ l
    if c.pos % 2 ^ (l + 1) == 0 && decide (p < c.size) then
      some ⟨base + p, l + 1, base + p, base + min (p + 2 ^ l) c.size - 1, false⟩
    else none
  if c.pos == 0 && decide (0 < c.team) then
    team ++ [⟨base - c.teamsz, c.levels + c.team, 0, base - 1, true⟩]
  else team

/-- Where this module's partial value goes: the rank and the range of ranks it then covers. -/
def GCfg.up (c : GCfg) : Nat × Nat × Nat :=
  let base := c.team * c.teamsz
  if c.pos == 0 then (base + c.teamsz, 0, base + c.size - 1)
  else
    let l := ((upTo c.levels).find? fun l => c.pos % 2 ^ (l + 1) != 0).getD 0
    (base + c.pos - 2 ^ l, base + c.pos, base + min (c.pos + 2 ^ l) c.size - 1)

/-- The depth at which this module's own value leaves its point. -/
def GCfg.ownDepth (c : GCfg) : Nat := c.srcs.foldl (fun d x => max d x.depth) 0

/-! ## Entries (R278 to R280) -/

structure Entry where
  parts : List Nat
  result : Nat
  nelem : Nat
  op : Nat
  flags : Nat
  trig : Nat
  thresh : Nat
  inc : Nat
  done : Nat
  dlNs : Nat
  dlStitch : Nat
  rsvZero : Bool
  deriving DecidableEq, Repr

def State.entry (s : State) (c : GCfg) (e : Nat) : Entry :=
  let a := c.table + 96 * e
  let n := fun o k => s.devNum (a + o) k
  { parts := [n 0 8, n 8 8, n 0x10 8, n 0x18 8], result := n 0x20 8, nelem := n 0x28 4, op := n 0x2C 1, flags := n 0x2D 1
    trig := n 0x2E 2, thresh := n 0x30 4, inc := n 0x34 4, done := n 0x38 2, dlNs := n 0x3C 4, dlStitch := n 0x40 8
    rsvZero := n 0x3A 2 == 0 && n 0x48 24 == 0 }

/-- Bytes of an element (R278). -/
def opBytes (op : Nat) : Nat := if op == 2 || op == 3 || op == 5 || op == 6 then 8 else 4

/-- The JOB of a buckle (R200). -/
def State.buckleJob (s : State) (b : Nat) : Nat := bits (s.reg (0x41004 + 8 * b)) 0 16
def State.buckleCount (s : State) (b : Nat) : Nat := s.reg (0x41000 + 8 * b)

def State.ownBuckle (s : State) (job b : Nat) : Bool := decide (b ≤ 0xFFF) && s.buckleJob b == job

/-- The result buffer of an entry can be written. -/
def State.resultOk (s : State) (e : Entry) : Bool :=
  e.result % 32 == 0 && decide (1 ≤ e.nelem) && decide (e.nelem ≤ 2 ^ 28) && s.inWritable e.result (e.nelem * opBytes e.op)

/-- The result buffer that an instance took from its entry (R291). -/
def State.instResultOk (s : State) (i : Inst) : Bool :=
  i.result % 32 == 0 && decide (1 ≤ i.nelem) && decide (i.nelem ≤ 2 ^ 28) && s.inWritable i.result (i.nelem * opBytes i.op)

/-- The check of R280. DESIGN CHOICE (log entry 12): a part that meets a poisoned unit fails it too. -/
def State.entryOk (s : State) (job : Nat) (e : Entry) : Bool :=
  let n := e.nelem * opBytes e.op
  e.rsvZero && decide (e.op ≤ 7) && decide (e.flags ≤ 1) && decide (e.inc ≠ 0)
    && s.resultOk e
    && (e.parts.all fun p => p == 0 || (p % 32 == 0 && s.inWritable p n && !s.poisoned p n))
    && s.ownBuckle job e.trig && (e.done == 0xFFFF || s.ownBuckle job e.done)
    && (e.op != 7 || e.parts.headD 0 != 0)

/-- Shard k: its first element and the element after its last (R279). -/
def shardOf (nelem nrank k : Nat) : Nat × Nat := (k * nelem / nrank, (k + 1) * nelem / nrank)

/-! ## Additions (R284, R285) -/

/-- The pairwise step of an OP on element encodings (R278). -/
def redOp (op a b : Nat) : Nat :=
  match op with
  | 0 | 1 => encodeF b32 (accAdd b32 (decodeF b32 a) (decodeF b32 b))
  | 2 | 3 => encodeF b64 (accAdd b64 (decodeF b64 a) (decodeF b64 b))
  | 4 => encodeF b32 (fmax (decodeF b32 a) (decodeF b32 b))
  | 5 => encodeF b64 (fmax (decodeF b64 a) (decodeF b64 b))
  | 6 => a ||| b
  | _ => a

def zipElems (op : Nat) : List Nat → List Nat → List Nat
  | x :: xs, y :: ys => redOp op x y :: zipElems op xs ys
  | xs, _ => xs

/-- add2 of R284 on whole values; an empty list is an empty operand. -/
def add2 (op : Nat) (a b : List Nat) : List Nat :=
  match a, b with
  | [], b => b
  | a, [] => a
  | a, b => zipElems op a b

/-- The elements of a buffer. -/
def State.elems (s : State) (a n size : Nat) : List Nat := (upTo n).map fun i => s.devNum (a + size * i) size

/-- module_value of R284. -/
def State.moduleValue (s : State) (e : Entry) : List Nat :=
  let x := e.parts.map fun p => if p == 0 then [] else s.elems p e.nelem (opBytes e.op)
  add2 e.op (add2 e.op (x.getD 0 []) (x.getD 1 [])) (add2 e.op (x.getD 2 []) (x.getD 3 []))

/-- R285: the divisor, and +0 when every rank is left out. -/
def finalValue (op nin nelem : Nat) (v : List Nat) : List Nat :=
  match v with
  | [] => List.replicate nelem 0
  | v =>
    if op == 1 then v.map fun x => encodeF b32 (fdiv b32 (decodeF b32 x) (.fin false nin 0)).v
    else if op == 3 then v.map fun x => encodeF b64 (fdiv b64 (decodeF b64 x) (.fin false nin 0)).v
    else v

/-! ## Instances (R281 to R283) -/

def Inst.named (i : Inst) (e k st : Nat) : Bool := i.entry == e && i.k == k && i.step == st

def Group.inst (g : Group) (e k st : Nat) : Option Inst := g.insts.find? fun i => i.named e k st

def onInst (g e k st : Nat) (f : Inst → Inst) (s : State) : State :=
  onGroup g (fun r => { r with insts := updateWhere (fun i => i.named e k st) f r.insts }) s

/-- D as the entry's deadline names it on this module's grid (R287). -/
def State.deadline (s : State) (dlNs dlStitch : Nat) : Option Nat :=
  if dlStitch == 0 then none else some (s.inStitch dlStitch dlNs)

/-- D of an instance, moved with its stitch. -/
def State.instD (s : State) (i : Inst) : Option Nat := s.deadline i.dlNs i.dlStitch

def Src.fresh (x : Src) : Operand := ⟨x.rank, none, 0, [], 0, false, false⟩

/-- The port that carries a group's partial values (R306). -/
def State.groupPort (s : State) (g : Nat) : Nat := (s.spreadPort 1 (s.memberOf (s.gcfg g) (s.gcfg g).up.1) true).getD 4

/-- A new instance: what the entry says, nothing triggered. For BCAST every other rank is an operand. -/
def State.newInst (s : State) (g e k st : Nat) : Inst :=
  let c := s.gcfg g
  let t := s.entry c e
  let verdict := e == 0xFFF
  let op := if verdict then 6 else t.op
  { group := g, entry := e, step := st, k := k, triggered := false, crossT := 0, crossSrc := 0, cmd := none
    op := op, all := !verdict && bit t.flags 0, nelem := if verdict then 1 else t.nelem
    result := t.result, done := if verdict then 0xFFFF else t.done
    dl := none, dlNs := if verdict then 0 else t.dlNs, dlStitch := if verdict then 0 else t.dlStitch
    dec := 0, own := [], ownEmpty := false
    operands := if op == 7 then ((upTo c.nrank).filter fun r => r != c.rank).map fun r => ⟨r, none, 0, [], 0, false, false⟩
                else c.srcs.map Src.fresh
    sentStart := false, sentUp := false, firstStart := none, shards := [], final := none, ended := none
    mask := 0xFFFFFFFF
    port := s.groupPort g }

/-- Make sure an instance is held. -/
def ensureInst (g e k st : Nat) (s : State) : State :=
  match (s.group g).inst e k st with
  | some _ => s
  | none => onGroup g (fun r => { r with insts := r.insts ++ [s.newInst g e k st] }) s

def Inst.name (i : Inst) (job : Nat) : InstName :=
  ⟨BitVec.ofNat 16 job, BitVec.ofNat 12 i.entry, BitVec.ofNat 16 i.k, BitVec.ofNat 64 i.step⟩

/-- Send a reduction message to a rank. -/
def sendRank (c : GCfg) (r : Nat) (m : Out) (s : State) : State := sendModule (.reduction (s.memberOf c r)) m s

/-- Every rank but this module's. -/
def GCfg.others (c : GCfg) : List Nat := (upTo c.nrank).filter fun r => r != c.rank

/-- Elements one RED_DATA message carries (R336). -/
def dataCap (op : Nat) : Nat := if opBytes op == 8 then 1021 else 2042

def dataCount (op nelem : Nat) : Nat := ceilDiv nelem (dataCap op)

/-- RED_DATA messages for consecutive elements. -/
def dataMsgs (n : InstName) (op shard : Nat) : (fuel off : Nat) → List Nat → List Out
  | 0, _, _ => []
  | _ + 1, _, [] => []
  | fuel + 1, off, xs =>
    let now := xs.take (dataCap op)
    .redData ⟨n, BitVec.ofNat 32 off, BitVec.ofNat 16 now.length, BitVec.ofNat 16 shard,
      now.flatMap fun x => leBytes (opBytes op) x⟩
      :: dataMsgs n op shard fuel (off + now.length) (xs.drop (dataCap op))

def sendData (c : GCfg) (r : Nat) (n : InstName) (op shard off : Nat) (xs : List Nat) (s : State) : State :=
  forEach (dataMsgs n op shard xs.length off xs) (fun m s => sendRank c r m s) s

/-! ## Progress at a point (R286, R289, R295) -/

/-- An operand's START has come or it is taken as empty. -/
def Operand.known (o : Operand) : Bool := o.start.isSome || o.empty

/-- Some rank of the operand's subtree is IN and its data is promised. -/
def Operand.promised (o : Operand) : Nat :=
  if o.empty then 0 else ((o.start.map fun r => r.ndata.toNat)).getD 0

def Operand.whole (o : Operand) : Bool := decide (o.promised ≤ o.got)

/-- The ranks that a START shows IN. -/
def startIn (r : RedStart) : List Nat :=
  ((upTo r.inmap.length).filter fun i => r.inmap.getD i false).map (· + r.rlo.toNat)

def Operand.inRanks (o : Operand) : List Nat := if o.empty then [] else (o.start.map startIn).getD []

/-- The decision of this module is taken, by its trigger or by timeout; a module that holds no remote operand sends its OUT
START only when the trigger comes (R289). -/
def Inst.ownKnown (i : Inst) : Bool := i.dec != 0 && (i.triggered || !i.operands.isEmpty)

/-- Ranks IN that this point knows. -/
def Inst.inRanks (i : Inst) (rank : Nat) : List Nat :=
  (if i.dec == 1 then [rank] else []) ++ i.operands.flatMap Operand.inRanks

/-- The value at this point: its own, then each operand in order, the chain's acc on the left (R284, R286). -/
def Inst.value (i : Inst) (c : GCfg) : List Nat :=
  (i.operands.zip c.srcs).foldl (fun v p => if p.2.left then add2 i.op p.1.elems v else add2 i.op v p.1.elems) i.own

/-- The elements this module must hold before it writes RESULT (R279, R291). -/
def Inst.wanted (i : Inst) (c : GCfg) : Nat × Nat := if i.all then (0, i.nelem) else shardOf i.nelem c.nrank c.rank

def Inst.holds (i : Inst) (c : GCfg) : Bool :=
  let (a, b) := i.wanted c
  (upTo (b - a)).all fun j => i.shards.any fun p => p.1 == a + j

def Inst.shardBytes (i : Inst) (a n : Nat) : List Byte :=
  (upTo n).flatMap fun j => leBytes (opBytes i.op) (((i.shards.find? fun p => p.1 == a + j).map (·.2)).getD 0)

/-- The mask record of R297. -/
def maskRecord (i : Inst) (c : GCfg) (ins : List Bool) : List Byte :=
  leBytes 2 i.entry ++ leBytes 2 i.k ++ leBytes 2 c.nrank ++ leBytes 2 0 ++ leBytes 8 i.step
    ++ leBytes (8 * ceilDiv c.nrank 64) ((upTo c.nrank).foldl (fun w r => w + b2n (ins.getD r false) * 2 ^ r) 0)

/-- Append a mask record to the ring and note its offset in the instance. -/
def appendMask (i : Inst) (c : GCfg) (ins : List Bool) (s : State) : State :=
  let rec_ := maskRecord i c ins
  let next := (s.group i.group).mlogNext
  if c.mlogSize < rec_.length then s
  else
    let wrap := decide (c.mlogSize < next + rec_.length)
    let off := if wrap then 0 else next
    let s := if wrap then note 0x0409 0 s.tsc.now srcFirmware c.job 0 next s else s
    let s := if s.inWritable (c.mlog + off) rec_.length
      then onInst i.group i.entry i.k i.step (fun j => { j with mask := off }) (hubWrite (c.mlog + off) rec_ s) else s
    onGroup i.group (fun g => { g with mlogNext := off + rec_.length }) s

/-! ## Buckles (R200 to R202, R281) -/

/-- The successive triggers that a count satisfies at once. -/
def triggersNow (count thresh inc n : Nat) : Nat :=
  let diff := (count + 2 ^ 33 * 2 ^ 32 - thresh - n * inc % 2 ^ 32) % 2 ^ 32
  if 2 ^ 31 ≤ diff then 0
  else if inc == 0 then 1
  else if inc ≤ 2 ^ 31 then diff / inc + 1
  else (2 ^ 31 - 1 - diff) / (2 ^ 32 - inc) + 1

/-- The trigger count of an entry. -/
def Group.count (g : Group) (e : Nat) : Nat := ((g.counts.find? fun p => p.1 == e).map (·.2)).getD 0

def Group.setCount (g : Group) (e n : Nat) : Group :=
  { g with counts := if g.counts.any fun p => p.1 == e then updateWhere (fun p => p.1 == e) (fun _ => (e, n)) g.counts
                     else g.counts ++ [(e, n)] }

/-- The triggers that buckle b makes in a group: counted, and queued with their crossing stamp. -/
def groupCross (b t src : Nat) (cmd : Option Nat) (g : Nat) (s : State) : State :=
  let c := s.gcfg g
  if !c.on then s else
  forEach ((upTo c.entries).filter fun e => s.devNum (c.table + 96 * e + 0x2E) 2 == b) (fun e s =>
    let x := s.entry c e
    let n := triggersNow (s.buckleCount b) x.thresh x.inc ((s.group g).count e)
    if n == 0 then s
    else onGroup g (fun r => { r.setCount e (r.count e + n) with queued := r.queued ++ [(e, t, src, cmd, n)] }) s) s

/-- Every trigger that the present count of a buckle makes (R281). -/
def crossings (b t src : Nat) (cmd : Option Nat) (s : State) : State := forEach (upTo 16) (groupCross b t src cmd) s

/-- A signal adds its increment to COUNT modulo 2^32 (R201). -/
def bump (b inc : Nat) (s : State) : State := setReg (0x41000 + 8 * b) ((s.buckleCount b + inc) % 2 ^ 32) s

/-- A signal whose triggers wait for TRIGGER_QUEUED_START: the engine's own DONE signals. -/
def signalQueued (b inc t src : Nat) (cmd : Option Nat) (s : State) : State := crossings b t src cmd (bump b inc s)

/-- DONE of an instance (R292). -/
def signalDone (i : Inst) (job : Nat) (s : State) : State :=
  if s.ownBuckle job i.done then signalQueued i.done 1 s.tsc.now srcFirmware none s else s

/-! ## Ending an instance (R290 to R292, R297) -/

/-- The instance ends: counted, DONE signalled. -/
def endInst (i : Inst) (job status : Nat) (s : State) : State :=
  signalDone i job
    (onGroup i.group (fun g => { g with
        ended := sat32 (g.ended + 1)
        partialCnt := sat32 (g.partialCnt + b2n (status == 1))
        failed := sat32 (g.failed + b2n (status == 2)) })
      (onInst i.group i.entry i.k i.step (fun j => { j with ended := some status })
        { s with grtFails := sat32 (s.grtFails + b2n (status == 2)) }))

/-- The slot with EN set that serves a job (R242). -/
def State.slotOf (s : State) (job : Nat) : Option Nat :=
  posOf (fun n => bit (s.reg (hubAddr 6 (0x400 + 0x80 * n))) 31 && bits (s.reg (hubAddr 6 (0x400 + 0x80 * n))) 0 16 == job) (upTo 16)

/-- A step that has not yet entered VOTING. -/
def TStep.early (x : TStep) : Bool := x.phase == .collecting || x.phase == .closing

/-- Raise the flag of the first step in the list that has not entered VOTING. -/
def raiseFirst : List TStep → List TStep
  | [] => []
  | x :: xs => if x.early then { x with flag := true } :: xs else x :: raiseFirst xs

/-- R290: the local flag of the earliest step of the job not yet in VOTING. -/
def raiseFlag (job : Nat) (s : State) : State :=
  match s.slotOf job with
  | some n => onSlot n (fun t => { t with steps := raiseFirst t.steps }) s
  | none => s

/-- A module learns that an instance is FAILED (R290). -/
def learnFailed (i : Inst) (job : Nat) (s : State) : State := raiseFlag job (endInst i job 2 s)

/-- RESULT is written and the instance ends, unless a captured page must wait (R368, R369). -/
def writeResult (i : Inst) (c : GCfg) (ins : List Bool) (s : State) : State :=
  let (a, b) := i.wanted c
  let addr := i.result + opBytes i.op * a
  let bs := i.shardBytes a (b - a)
  let ok := s.instResultOk i
  if ok && s.hubWaits addr bs.length then s
  else
    let s := if ok then hubWrite addr bs s else s
    let part := !(upTo c.nrank).all fun r => ins.getD r false
    let s := if part then appendMask i c ins s else s
    endInst i c.job (if part then 1 else 0) s

/-- The START this point sends on (R336). -/
def Inst.startMsg (i : Inst) (c : GCfg) : RedStart :=
  let (_, lo, hi) := c.up
  let ins := i.inRanks c.rank
  let data := !i.own.isEmpty || i.operands.any fun o => decide (0 < o.promised) || !o.elems.isEmpty
  ⟨i.name c.job, BitVec.ofNat 8 c.ownDepth, BitVec.ofNat 8 i.dec, BitVec.ofNat 16 lo, BitVec.ofNat 16 hi,
    BitVec.ofNat 32 (if data then dataCount i.op i.nelem else 0), BitVec.ofNat 32 i.dlNs, BitVec.ofNat 64 i.dlStitch,
    (upTo (hi + 1 - lo)).map fun j => ins.contains (lo + j)⟩

/-- The point's START, or at the final module FINAL to every member, once every decision is known. -/
def passStart (i : Inst) (c : GCfg) (s : State) : State :=
  let upd := fun (f : Inst → Inst) => onInst i.group i.entry i.k i.step f
  if i.sentStart || !i.ownKnown || !(i.operands.all Operand.known) then s
  else if c.isFinal then
    let ins := (upTo c.nrank).map fun r => (i.inRanks c.rank).contains r
    let nin := (ins.filter id).length
    let s := upd (fun j => { j with sentStart := true, final := some (nin, ins) }) s
    if i.entry == 0xFFF then s
    else forEach c.others (fun r s => sendRank c r (.redFinal ⟨i.name c.job, BitVec.ofNat 16 nin, 0, ins⟩) s) s
  else
    sendRank c c.up.1 (.redStart (i.startMsg c)) (upd (fun j => { j with sentStart := true }) s)

/-- The shards of a final value go to their owners, or all to every rank (R279, R286). -/
def sendShards (i : Inst) (c : GCfg) (v : List Nat) (s : State) : State :=
  forEach c.others (fun r s =>
    forEach (if i.all then upTo c.nrank else [r]) (fun k s =>
      let (a, b) := shardOf i.nelem c.nrank k
      sendData c r (i.name c.job) i.op k a ((v.drop a).take (b - a)) s) s) s

/-- The point's data, once every operand is whole; at the final module R285 and the results. -/
def passData (i : Inst) (c : GCfg) (s : State) : State :=
  let upd := fun (f : Inst → Inst) => onInst i.group i.entry i.k i.step f
  if i.sentUp || !i.sentStart || !(i.operands.all Operand.whole) then s
  else if c.isFinal then
    let nin := (i.final.map (·.1)).getD 0
    let ins := (i.final.map (·.2)).getD []
    let v := finalValue i.op nin i.nelem (i.value c)
    let s := upd (fun j => { j with sentUp := true, shards := (upTo v.length).zip v }) s
    if i.entry == 0xFFF then
      let flag := v.headD 0 % 2
      let miss := b2n (decide (nin < c.nrank))
      forEach c.others (fun r s =>
          sendRank c r (.redFinal ⟨i.name c.job, BitVec.ofNat 16 nin, BitVec.ofNat 8 (flag + 2 * miss), ins⟩) s)
        (upd (fun j => { j with shards := [(0, flag), (1, miss)] }) s)
    else sendShards i c v s
  else
    sendData c c.up.1 (i.name c.job) i.op 0xFFFF 0 (i.value c) (upd (fun j => { j with sentUp := true }) s)

/-- RESULT is written once FINAL, every wanted element and the module's own trigger have come (R291). -/
def finishInst (i : Inst) (c : GCfg) (s : State) : State :=
  match i.final with
  | some (_, ins) => if i.triggered && i.ended.isNone && i.holds c && (!c.isFinal || i.sentUp) then writeResult i c ins s else s
  | none => s

/-- A BCAST shard of a rank is whole. -/
def Inst.bcastHolds (i : Inst) (c : GCfg) (k : Nat) : Bool :=
  let (a, b) := shardOf i.nelem c.nrank k
  (upTo (b - a)).all fun j => i.shards.any fun p => p.1 == a + j

/-- A shard in RESULT is not yet written: it waits for a captured page (R368, R369). -/
def Inst.shardWaits (i : Inst) (s : State) : Bool :=
  s.writes.any fun w => w.own && overlap w.addr w.bytes.length i.result (4 * i.nelem)

/-- A BCAST instance ends once it has triggered and every shard has been written (R293). -/
def finishBcast (i : Inst) (c : GCfg) (s : State) : State :=
  if i.triggered && i.ended.isNone && !i.shardWaits s && (upTo c.nrank).all fun k => i.bcastHolds c k
  then endInst i c.job 0 s else s

/-- Run a step of progress on an instance as it now stands. -/
def withInst (g e k st : Nat) (f : Inst → GCfg → State → State) (s : State) : State :=
  match (s.group g).inst e k st with
  | some i => f i (s.gcfg g) s
  | none => s

/-- Every message and write that the instance is ready for. -/
def advance (g e k st : Nat) (s : State) : State :=
  match (s.group g).inst e k st with
  | none => s
  | some i =>
    if i.ended.isSome then s
    else if i.op == 7 then withInst g e k st finishBcast s
    else
      let s := withInst g e k st passData (withInst g e k st passStart s)
      if e == 0xFFF then s else withInst g e k st finishInst s

/-! ## Triggers (R281, R282, R288, R299, R300) -/

/-- Whether the directive list leaves this module out of an instance: a record with its ENTRY, K and STEP whose bit RANK
is clear (R299); `fuel` bounds the records. -/
def State.directed (s : State) (c : GCfg) (e k st : Nat) : (fuel off : Nat) → Bool
  | 0, _ => false
  | fuel + 1, off =>
    if c.dirLen < off + 16 then false
    else
      let a := c.dir + off
      let n := s.devNum (a + 4) 2
      let size := 16 + 8 * ceilDiv n 64
      if c.dirLen < off + size then false
      else if s.devNum a 2 == e && s.devNum (a + 2) 2 == k && s.devNum (a + 8) 8 == st
          && !bit (s.devNum (a + 16 + c.rank / 8) 1) (c.rank % 8) then true
      else s.directed c e k st fuel (off + size)

/-- The earlier triggers of an entry with a STEP. -/
def Group.kOf (g : Group) (e st : Nat) : Nat := ((g.ks.find? fun p => p.1 == e && p.2.1 == st).map (·.2.2)).getD 0

def Group.nextK (g : Group) (e st : Nat) : Group :=
  { g with ks := if g.ks.any fun p => p.1 == e && p.2.1 == st
                 then updateWhere (fun p => p.1 == e && p.2.1 == st) (fun p => (p.1, p.2.1, p.2.2 + 1)) g.ks
                 else g.ks ++ [(e, st, 1)] }

/-- The STEP of R282: the step the sending command is bound to. -/
def State.stepOf (s : State) (cmd : Option Nat) : Nat :=
  ((cmd.bind fun id => s.cmds[id]?).bind fun c => c.step).elim 0 (·.2)

/-- An owner's BCAST START and shard to every other rank, and its own shard into RESULT (R293). -/
def sendBcast (i : Inst) (e : Entry) (c : GCfg) (ok : Bool) (s : State) : State :=
  let (a, b) := shardOf i.nelem c.nrank c.rank
  let xs := if ok then s.elems (e.parts.headD 0 + 4 * a) (b - a) 4 else []
  let st : RedStart := ⟨i.name c.job, 0, if ok then 1 else 3, BitVec.ofNat 16 c.rank, BitVec.ofNat 16 c.rank,
    BitVec.ofNat 32 (dataCount 7 xs.length), BitVec.ofNat 32 i.dlNs, BitVec.ofNat 64 i.dlStitch, [ok]⟩
  let s := forEach c.others (fun r s => sendData c r (i.name c.job) 7 c.rank a xs (sendRank c r (.redStart st) s)) s
  let s := if ok then hubWrite (i.result + 4 * a) (xs.flatMap fun x => leBytes 4 x) s else s
  onInst i.group i.entry i.k i.step (fun j => { j with
    sentStart := true
    sentUp := true
    shards := j.shards ++ (((upTo xs.length).map (· + a)).zip xs) }) s

/-- A trigger's instance starts: the check of R280, the decision of R288 or R299, START and data. -/
def startInst (g e t src : Nat) (cmd : Option Nat) (s : State) : State :=
  let c := s.gcfg g
  let x := s.entry c e
  let st := s.stepOf cmd
  let k := (s.group g).kOf e st % 65536
  let ok := s.entryOk c.job x
  let s := onGroup g (fun r => r.nextK e st) s
  let s := if ok then s else note 0x0405 1 t src c.job 0 (e * 65536) s
  let fresh := s.newInst g e k st
  -- an instance of the same name that has already ended on this module with its trigger is replaced
  let s := onGroup g (fun r => { r with insts := r.insts.filter fun i => !(i.named e k st && i.triggered) }) s
  let s := ensureInst g e k st s
  let mark := fun (dec : Nat) => onInst g e k st fun i => { i with
    triggered := true, crossT := t, crossSrc := src, cmd := cmd, op := fresh.op, all := fresh.all, nelem := fresh.nelem
    result := fresh.result, done := fresh.done, dlNs := fresh.dlNs, dlStitch := fresh.dlStitch, dl := s.deadline x.dlNs x.dlStitch
    dec := dec }
  if s.hostReduce then
    note 0x0408 0 t src c.job 0 (e * 65536 + k) (onInst g e k st (fun i => { i with ended := some 3 }) (mark 1 s))
  else if x.op == 7 then
    advance g e k st (withInst g e k st (fun i c s => if i.ended.isSome then s else sendBcast i x c ok s)
      (mark (if ok then 1 else 3) s))
  else
    let late := if c.forced then s.directed c e k st c.dirLen 0
      else (s.deadline x.dlNs x.dlStitch).any fun d => decide (d ≤ t)
    let timedOut := ((s.group g).inst e k st).any fun i => i.ownEmpty
    let dec := if !ok then 3 else if late || timedOut then 2 else 1
    let s := if dec == 2 then note 0x0401 1 t src c.job 0 (e * 65536 + k) s else s
    let s := mark dec s
    let s := if dec == 1 then
        let v := s.moduleValue x
        onInst g e k st (fun i => { i with own := v }) s
      else s
    -- a point taken as empty by timeout has sent its subtree's START; its own OUT START goes with the trigger (R289)
    let again := fun (i : Inst) (c : GCfg) (s : State) =>
      if timedOut && i.sentStart && !c.isFinal && i.ended.isNone then sendRank c c.up.1 (.redStart (i.startMsg c)) s else s
    advance g e k st (withInst g e k st again s)

/-- Instances of an entry in flight on this module (R281). -/
def Group.inFlight (g : Group) (e : Nat) : Nat := (g.insts.filter fun i => i.entry == e && i.triggered && i.ended.isNone).length

/-- Take the oldest queued trigger of an entry. -/
def Group.takeQueued (e : Nat) : List (Nat × Nat × Nat × Option Nat × Nat) →
    Option (Nat × Nat × Option Nat) × List (Nat × Nat × Nat × Option Nat × Nat)
  | [] => (none, [])
  | (e', t, src, cmd, n) :: rest =>
    if e' == e then (some (t, src, cmd), if n ≤ 1 then rest else (e', t, src, cmd, n - 1) :: rest)
    else let (r, xs) := Group.takeQueued e rest; (r, (e', t, src, cmd, n) :: xs)

/-- Instances that a port holds, of every job: opened by a trigger, by a message or by a vote, and not ended (R294). -/
def State.portInsts (s : State) (p : Nat) : Nat :=
  (s.groups.map fun g => (g.insts.filter fun i => i.ended.isNone && i.port == p).length).sum

/-- An instance of a group is in flight, or its port has one of its 256 places for it (R294). -/
def State.mayHold (s : State) (g e k st : Nat) : Bool :=
  ((s.group g).inst e k st).any (fun i => i.ended.isNone) || decide (s.portInsts (s.groupPort g) < 256)

/-- The oldest queued trigger of an entry finds a place: its instance is held already, or the port has room. -/
def State.triggerHolds (s : State) (g e : Nat) : Bool :=
  ((s.group g).queued.find? fun q => q.1 == e).all fun q =>
    let st := s.stepOf q.2.2.2.1
    s.mayHold g e ((s.group g).kOf e st % 65536) st

/-- A queued trigger may start: a place of the entry's four is free (R281), and one of the port's 256 (R294). -/
def State.mayStart (s : State) (g e : Nat) : Bool := decide ((s.group g).inFlight e < 4) && s.triggerHolds g e

/-- Start one queued trigger of an entry where it may start. -/
def startQueued (g e : Nat) (s : State) : State :=
  if !s.mayStart g e then s
  else match Group.takeQueued e (s.group g).queued with
    | (some (t, src, cmd), rest) => startInst g e t src cmd (onGroup g (fun r => { r with queued := rest }) s)
    | (none, _) => s

/-- The queued triggers that may start on a port: deadline (none beyond all time), job, group and entry. -/
def State.waitingStarts (s : State) (p : Nat) : List (Option Nat × Nat × Nat × Nat) :=
  (upTo 16).flatMap fun g =>
    if (s.gcfg g).on && s.groupPort g == p then
      (((s.group g).queued.map (·.1)).eraseDups.filter fun e => s.mayStart g e).map fun e =>
        let x := s.entry (s.gcfg g) e
        (s.deadline x.dlNs x.dlStitch, (s.gcfg g).job, g, e)
    else []

/-- Earliest D first, then the lower job (R294). -/
def startsBefore (a b : Option Nat × Nat × Nat × Nat) : Bool :=
  match a.1, b.1 with
  | some x, some y => decide (x < y) || (x == y && decide (a.2.1 < b.2.1))
  | some _, none => true
  | none, some _ => false
  | none, none => decide (a.2.1 < b.2.1)

/-- The first of a list in that order; the earlier in the list of equals. -/
def firstStart {α : Type} (key : α → Option Nat × Nat × Nat × Nat) (xs : List α) : Option α :=
  xs.foldl (fun b x => match b with
    | some y => if startsBefore (key x) (key y) then some x else b
    | none => some x) none

/-- Start queued triggers in the order of R294; `fuel` bounds them. -/
def startInOrder : (fuel : Nat) → State → State
  | 0, s => s
  | fuel + 1, s =>
    match firstStart id ((upTo 8).flatMap s.waitingStarts) with
    | some w => startInOrder fuel (startQueued w.2.2.1 w.2.2.2 s)
    | none => s

/-- Start the triggers just queued, as many as four places of each entry allow. -/
def startNew (s : State) : State := startInOrder (4 * (s.groups.map fun g => (g.queued.map (·.1)).eraseDups.length).sum) s

/-- A signal of a command or of its descriptor, with the reductions it triggers (R202, R281). -/
def signal (b inc t src : Nat) (cmd : Option Nat) (s : State) : State := startNew (signalQueued b inc t src cmd s)

/-- A wait on a buckle is satisfied (R201). -/
def State.waitMet (s : State) (b t : Nat) : Bool := decide ((s.buckleCount b + 2 ^ 32 - t) % 2 ^ 32 < 2 ^ 31)

/-! ## Acceptance (R283) -/

/-- The instance a reduction message belongs to. -/
def Out.instOf : Out → Option InstName
  | .redStart r => some r.name
  | .redData r => some r.name
  | _ => none

/-- START and every data message of the instances a command triggered have been accepted at the first adder; the final
module has none to send. -/
def State.redAccepted (s : State) (cmd : Nat) : Bool :=
  (upTo 16).all fun g =>
    ((s.group g).queued.all fun q => q.2.2.2.1 != some cmd)
    && ((s.group g).insts.all fun i =>
      i.cmd != some cmd ||
        ((i.ended.isSome || (s.gcfg g).isFinal || (i.sentStart && i.sentUp)) &&
         let n := some (i.name (s.gcfg g).job)
         (s.unacked.all fun u => u.body.instOf != n) && (s.queued.all fun q => q.2.instOf != n)))

end Sys2Proof.Machine
end

