-- ==== Sys2Proof/Machine/Lifecycle.lean ====
section
/-! DEFINITION. The life of a command from admission to its one final status: budgets and the window (R48 to R51), the
fences of training (R247 to R249), dispatch (R24, R55, R329), and every way of ending (R54, R56, R124, R160, R193, R203,
R250, R327, R328). -/

namespace Sys2Proof.Machine

/-! ## Commands -/

/-- The logical clusters of a command's set (R205). -/
def Desc.logicals (d : Desc) : List Nat := (upTo (d.clCount + 1)).map (· + d.clBase)
def Desc.uses (d : Desc) (l : Nat) : Bool := decide (d.clBase ≤ l) && decide (l ≤ d.clBase + d.clCount)

def Cmd.live (c : Cmd) : Bool :=
  match c.phase with
  | .ended _ => false
  | _ => true

/-- Held or admitted, not dispatched. -/
def Cmd.waiting (c : Cmd) : Bool := c.phase == .held || c.phase == .admitted

/-- The numbers of the commands that meet a test, in the order of arrival (R48). -/
def idsFrom (p : Cmd → Bool) : (n : Nat) → List Cmd → List Nat
  | _, [] => []
  | n, c :: cs => if p c then n :: idsFrom p (n + 1) cs else idsFrom p (n + 1) cs

def State.cmdIds (s : State) (p : Cmd → Bool) : List Nat := idsFrom p 0 s.cmds

def Cmd.sameStream (a b : Cmd) : Bool := a.d.job == b.d.job && a.d.stream == b.d.stream

/-- Some command of the same stream that arrived before meets a test (R51). -/
def State.earlierOfStream (s : State) (id : Nat) (c : Cmd) (p : Cmd → Bool) : Bool :=
  (s.cmds.take id).any fun e => e.live && e.sameStream c && p e

/-! ## Blocks (R55, R406) -/

/-- Whether a gated page admits: EN, and at dispatch EN or DRAIN. -/
def State.pageEn (s : State) (base : Nat) : Bool := bit (s.reg (base + 8)) 31
def State.pageDispatch (s : State) (base : Nat) : Bool := bit (s.reg (base + 8)) 31 || bit (s.reg (base + 8)) 30

/-- The gated pages a command uses: MOD_, and the five of each cluster of its set. -/
def State.pagesUsed (s : State) (d : Desc) : List Nat :=
  0 :: d.logicals.flatMap fun l => match s.physOf l with
    | some x => (upTo 5).map fun j => clusterAddr x j 0
    | none => []

/-- A logical number of the set is vacant (R39). -/
def State.vacant (s : State) (d : Desc) : Bool := d.logicals.any fun l => (s.physOf l).isNone

/-! ## Budgets and the window (R41 to R50, R353) -/

/-- What one cluster offers in a stitch: B, or W_cap under COVER. DESIGN CHOICE, UNSAFE (R49, log 71): in the gap before a new
grid a command's cost is checked against the budget of the new period. -/
def State.stitchBudget (s : State) (n : Nat) : Nat :=
  let p := (s.stitchStart n).2
  if s.spr.cover then coverCap p else budgetOf p

/-- The cost charged to a cluster in a stitch. -/
def State.used (s : State) (l n : Nat) : Nat :=
  s.cmds.foldl (fun t c => if c.charged && c.stitch == n && c.d.uses l then t + c.d.cost else t) 0

def State.fits (s : State) (d : Desc) (n : Nat) : Bool :=
  d.logicals.all fun l => decide (d.cost + s.used l n ≤ s.stitchBudget n)

/-- The trees are ready by a time at the latest: within 2 ms of the request (R433). -/
def State.readyBy (s : State) : Nat := s.pwr.wokeAt + 2000000

/-- The stitch that the ON boundary begins is known, or none is awaited (R433). -/
def State.onKnown (s : State) : Bool := !s.pwr.waking || s.pwr.treesReady

/-- The first and last stitch whose admission is open (R44, R46, R50). Until the trees are ready to leave IDLE, that is the
first that begins when they are ready at the latest (R433). -/
def State.openLo (s : State) : Nat :=
  let lo := s.sth.number + (if s.sth.closed then 2 else 1)
  if !s.onKnown then (((upTo 64).map (· + lo)).find? fun n => decide (s.readyBy < (s.stitchStart n).1)).getD (s.sth.number + 64)
  else lo
def State.openHi (s : State) : Nat :=
  let hi := s.sth.number + 63
  match s.sth.change with
  | none => hi
  | some c => min hi ((if s.sth.gap then s.sth.number else s.changeNumber c) - 1)

/-- The stitch a command is admitted to, if one of the window serves (R50, R51). While the ON boundary is awaited, a command
that one of the stitches before the first surely open might serve waits until it is known (R433; log entry 74). -/
def State.choose (s : State) (id : Nat) (c : Cmd) : Option Nat :=
  if s.earlierOfStream id c (fun e => e.phase == .held) then none
  else
    let floor := (s.cmds.take id).foldl (fun m e => if e.live && e.sameStream c then max m e.stitch else m) 0
    let lo := max (max c.d.target floor) s.openLo
    if s.openHi < lo || (!s.onKnown && decide (max c.d.target floor < s.openLo)) then none else ((upTo (s.openHi + 1 - lo)).map (· + lo)).find? fun n => s.fits c.d n

/-! ## Status records (R327, R328) -/

/-- A step of a slot. -/
def TSlot.find (t : TSlot) (n : Nat) : Option TStep := t.steps.find? fun x => x.num == n

/-- FALLBACK of DEGR: the step's table holds NARROW_DEGRADED. -/
def State.degraded (s : State) (c : Cmd) : Bool :=
  match c.step with
  | some (n, k) => match (s.slot n).find k with
    | some x => x.fb.any fun e => e.2 == 2
    | none => c.fallback
  | none => c.fallback

def State.statusRec (s : State) (c : Cmd) (status code arg : Nat) : StatusRec where
  tag := c.d.tag
  status := status
  code := code
  degr := b2n c.standin + 2 * b2n (s.degraded c)
  stitch := c.stitch
  declared := c.d.cost
  measured := c.measured
  step := (c.step.elim 0 (·.2)) % 2 ^ 32
  arg := arg

def sendStatus (id status code arg : Nat) (s : State) : State :=
  match s.cmds[id]? with
  | some c => sendSession c.sid (.cmdStatus [s.statusRec c status code arg]) s
  | none => s

def Final.code : Final → Nat
  | .completed => 2
  | .refused => 3
  | .overrun => 4
  | .aborted => 5
  | .programError => 6
  | .discarded => 7

/-! ## Ending (R124, R160, R203) -/

/-- Bytes of a slot (R120, R121); `mode` as MODE of R116. -/
def accBytes (mode : Nat) : Nat := if mode == 1 then 2 else if mode == 2 then 8 else 4
def slotSize (rows mode : Nat) : Nat := rows * 128 * accBytes mode

/-- The bytes of the output store that a slot occupies (R121). -/
def Slot.range (k : Slot) : Nat × Nat := (k.slot * slotSize k.rows k.mode, slotSize k.rows k.mode)

/-- A byte of the output store lies in a slot. -/
def Slot.covers (k : Slot) (a : Nat) : Bool := decide (k.range.1 ≤ a) && decide (a < k.range.1 + k.range.2)

/-- Every slot that a command left unfreed goes to +0, and so do the bytes of its freed slots that lie in no slot another
command holds, so that no slot carries a value from one command to another (R124). -/
def Cluster.clearSlots (id : Nat) (c : Cluster) : Cluster :=
  let others := c.slots.filter fun k => k.cmd != id && !k.freed
  let gone := c.slots.filter fun k => k.cmd == id
  { c with
    ostore := c.ostore.filter fun e => !(gone.any fun k => k.covers e.1 && (!k.freed || !(others.any fun o => o.covers e.1)))
    slots := c.slots.filter fun k => k.cmd != id }

/-- A statistics run that has ended; the sticky error and the next COLTILE stay (R139, R145). -/
def StatRun.ended (r : StatRun) : StatRun := { r with active := false, rows := [] }

/-- A command's work leaves a cluster: its context, queued operations, held effects, slots, run and tiles. DESIGN CHOICE,
UNSAFE (R161, log 83): a tile behind the tap is no tile of the queue, and LCH_TQ_DISCARD does not count it. -/
def Cluster.dropCmd (id : Nat) (abnormal : Bool) (c : Cluster) : Cluster :=
  { (c.clearSlots id).dropDrn id with
    ctxs := c.ctxs.map fun x => if x.cmd == some id then Ctx.reset else x
    arrQ := c.arrQ.filter fun o => o.cmd != id
    emits := c.emits.filter fun e => e.op.cmd != id
    chainQ := c.chainQ.filter fun o => o.cmd != id
    gate := c.gate.filter fun g => g.cmd != id
    replayQ := c.replayQ.filter fun r => r.1 != id
    suppress := c.suppress.filter fun p => p.1 != id
    run := if c.run.active && c.run.cmd == id then c.run.ended else c.run
    tq := c.tq.filter fun t => t.cmd != id
    discards := sat32 (c.discards + (c.tq.filter fun t => t.cmd == id && !t.tap).length)
    pfs := if abnormal then c.pfs.map fun p => if p.cmd == id then { p with active := false } else p else c.pfs }

/-- A cluster holds something of a command. -/
def Cluster.mentions (id : Nat) (c : Cluster) : Bool :=
  (c.ctxs.any fun x => x.cmd == some id) || (c.arrQ.any fun o => o.cmd == id) || (c.emits.any fun e => e.op.cmd == id)
    || (c.chainQ.any fun o => o.cmd == id) || (c.gate.any fun g => g.cmd == id) || (c.slots.any fun k => k.cmd == id)
    || (c.tq.any fun t => t.cmd == id) || (c.run.active && c.run.cmd == id) || (c.replayQ.any fun r => r.1 == id)
    || (c.pfs.any fun p => p.active && p.cmd == id)

/-- A replay of the command still runs here: its completion does not stop it (R347, R348). -/
def Cluster.replaying (id : Nat) (c : Cluster) : Bool := c.suppress.any fun p => p.1 == id

/-- SPR_REPLAY, once for each command re-executed: at the end of its re-execution, or where that is cut off (R348, R349). -/
def noteReplay (x id : Nat) (s : State) : State :=
  match s.cmds[id]? with
  | some c => note 0x0602 0 s.tsc.now srcSpare c.d.job c.d.tag (s.tsc.now - (s.cl x).replayAt) s
  | none => s

/-- The re-execution of a command on cluster x is cut off; one still waiting to be re-executed has none (R348). -/
def cutReplay (id x : Nat) (s : State) : State :=
  if (s.cl x).replaying id && !((s.cl x).replayQ.any fun q => q.1 == id) then noteReplay x id s else s

def dropWork (id : Nat) (abnormal : Bool) (s : State) : State :=
  let s := if abnormal then forEach (upTo 144) (cutReplay id) s else s
  { s with
    clusters := s.clusters.map fun c =>
      if c.mentions id && (abnormal || !c.replaying id) then c.dropCmd id abnormal else c
    writes := if abnormal then s.writes.filter fun w => w.cmd != some id else s.writes }

/-- The one final status of a command (R328). `measured` is given for a completion; otherwise a command that was
dispatched reports a count this model leaves free. -/
def endCommand (id : Nat) (f : Final) (code arg : Nat) (measured : Option Nat) (s : State) : State :=
  match s.cmds[id]? with
  | none => s
  | some c =>
    if !c.live then s else
    let (n, s) := draw s
    let m := match measured with
      | some m => m
      | none => if c.phase == .dispatched then Config.cycles n % 2 ^ 32 else 0
    sendStatus id f.code code arg
      (onCmd id (fun c => { c with
          phase := .ended f
          code := code
          errArg := arg
          measured := m
          fallback := s.degraded c
          charged := c.charged && c.phase == .dispatched })
        (dropWork id (f != .completed) s))

/-- Refusal: its reason in the status and in CMD_REFUSED, counted (R49, R68). -/
def refuse (id reason : Nat) (s : State) : State :=
  match s.cmds[id]? with
  | none => s
  | some c =>
    if !c.live then s else
    endCommand id .refused reason 0 none
      (note 0x0100 1 s.tsc.now srcFirmware c.d.job c.d.tag reason (onSth (fun t => { t with refused := sat32 (t.refused + 1) }) s))

/-- The descriptor's SIGNAL (R206, R250). -/
def descSignal (id src : Nat) (s : State) : State :=
  match s.cmds[id]? with
  | some c => match c.d.signal with
    | some (b, inc) => signal b inc s.tsc.now src (some id) s
    | none => s
  | none => s

/-- Discard of an update command (R250). -/
def discard (id : Nat) (s : State) : State :=
  match s.cmds[id]? with
  | none => s
  | some c =>
    if !c.live then s else
    let s := match c.step with
      | some (n, k) =>
        note 0x0302 0 s.tsc.now srcFirmware c.d.job c.d.tag k
          (onSlot n (fun t => { t with
            discards := sat32 (t.discards + 1)
            steps := updateWhere (fun x => x.num == k) (fun x => { x with discarded := x.discarded + 1 }) t.steps }) s)
      | none => s
    descSignal id srcFirmware (endCommand id .discarded 0 0 none s)

/-- PROGRAM_ERROR met on cluster x by an instruction or operation of context k (R193): recorded in PMC_ERR and PMC_ERR_PC,
and the command ends on every cluster. `pc` is the byte offset of the instruction. A replay of a command that has already
ended only stops (R348). -/
def programErrorOf (x k id code pc : Nat) (s : State) : State :=
  let s := onCl x (fun c => { c with pmcErr := c.pmcErr.add code k pc }) s
  onCl x (Cluster.dropCmd id true) (cutReplay id x (endCommand id .programError code (s.cl x).pmcErr.pc none s))

/-- The same for the command that a context runs. -/
def programError (x k code pc : Nat) (s : State) : State :=
  match (s.cl x).cx k |>.cmd with
  | some id => programErrorOf x k id code pc s
  | none => s

/-! ## Fences of training (R247 to R249, R268, R271) -/

/-- A command may be dispatched in a stitch that begins at b. -/
def State.fenceOpen (s : State) (c : Cmd) (b : Nat) : Bool :=
  match c.step with
  | none => true
  | some (n, k) =>
    let t := s.slot n
    if c.time ≤ t.enabledAt && !c.fenced then true
    else if c.fenced then
      match t.find k with
      | some x => x.verdict == some false && decide (x.verdictAt < b)
      | none => true
    else if t.halt.isSome then false
    else match t.find k with
      | none => true
      | some _ =>
        match t.steps.find? fun x => x.num + 1 == k with
        | some p => p.verdict.isSome && decide (p.verdictAt < b)
        | none => decide (t.enabledAt < b)

/-! ## Admission and dispatch -/

/-- Admit to a stitch; the first admission is reported where NOTIFY asks (R328). -/
def admitCmd (id n : Nat) (s : State) : State :=
  let first := ((s.cmds[id]?).map fun c => c.notify && !c.notified).getD false
  let s := onCmd id (fun c => { c with phase := .admitted, stitch := n, charged := true, posted := true,
                                       notified := c.notified || c.notify }) s
  if first then sendStatus id 1 0 0 s else s

/-- To the hold queue, the budget returned (R46, R50, R247). -/
def hold (id : Nat) (s : State) : State := onCmd id (fun c => { c with phase := .held, charged := false, posted := true }) s

/-- A command back in the hold queue, and every later command of its stream behind it (R51). -/
def holdBack (id : Nat) (s : State) : State :=
  match s.cmds[id]? with
  | some c => forEach ((s.cmdIds fun e => e.phase == .admitted && e.sameStream c).filter fun j => decide (id ≤ j)) hold s
  | none => s

/-- Offer a held command to the window (R50); EN and the check of R39 apply to every admission (R55). -/
def offer (id : Nat) (s : State) : State :=
  match s.cmds[id]? with
  | some c =>
    if c.phase != .held then s
    else if s.spr.fatal then refuse id 4 s
    else match s.choose id c with
      | some n =>
        if !(s.pagesUsed c.d).all s.pageEn then refuse id 4 s
        else if s.vacant c.d then refuse id 6 s
        else admitCmd id n s
      | none => s
  | none => s

def offerHeld (s : State) : State := forEach (s.cmdIds fun c => c.phase == .held) offer s

/-- Dispatch, or what stands in its way at the boundary b that begins its stitch. -/
def dispatch (b id : Nat) (s : State) : State :=
  match s.cmds[id]? with
  | none => s
  | some c =>
    if c.phase != .admitted || c.stitch != s.sth.number then s
    else if s.spr.fatal || s.pwr.state != .on then refuse id 4 s
    else if s.earlierOfStream id c (fun e => e.phase == .held) || !s.fenceOpen c b then holdBack id s
    else if !(s.pagesUsed c.d).all s.pageDispatch then refuse id 4 s
    else if s.vacant c.d then refuse id 6 s
    else if !c.after.isEmpty then s
    else
      let s := onCmd id (fun c => { c with phase := .dispatched }) s
      match c.step with
      | some (n, k) => onSlot n (fun t => { t with steps := updateWhere (fun x => x.num == k) (fun x => { x with
          firstStitch := some (x.firstStitch.getD s.sth.number) }) t.steps }) s
      | none => s

/-- Every command of the stitch that begins (R24). -/
def dispatchAll (b : Nat) (s : State) : State :=
  forEach (s.cmdIds fun c => c.phase == .admitted && c.stitch == s.sth.number) (dispatch b) s

/-! ## Overrun (R54) -/

/-- The command's work on a logical cluster is unfinished: its END there has not been released. -/
def Cmd.unfinishedOn (c : Cmd) (l : Nat) : Bool := !c.endsMade.contains l

/-- The lowest logical number that still holds unfinished work (R439). -/
def Cmd.lowestUnfinished (c : Cmd) : Nat := ((c.d.logicals.find? fun l => c.unfinishedOn l)).getD c.d.clBase

def State.clusterSource (s : State) (l : Nat) : Nat :=
  match s.physOf l with
  | some x => srcCluster x
  | none => srcFirmware

def overrun (b id : Nat) (s : State) : State :=
  match s.cmds[id]? with
  | none => s
  | some c =>
    let l := c.lowestUnfinished
    endCommand id .overrun 0 0 none
      (note 0x0102 2 b (s.clusterSource l) c.d.job c.d.tag l (onSth (fun t => { t with overruns := sat32 (t.overruns + 1) }) s))

/-- The work of the stitch that ends: commands dispatched, and those whose dispatch still waits under R329. -/
def overrunAll (b : Nat) (s : State) : State :=
  forEach (s.cmdIds fun c => c.phase == .dispatched || (c.phase == .admitted && decide (c.stitch ≤ s.sth.number))) (overrun b) s

end Sys2Proof.Machine
end

