-- ==== Sys2Proof/Machine/OpWords.lean ====
section
/-! DEFINITION. The operation words of the array and the chain (R115, R116, R152, R191), their checks at issue (R117, R155,
R440), and what each operation in flight touches (R186). -/

namespace Sys2Proof.Machine

/-! ## The array operation word (R115) -/

structure ArrWord where
  fmt : Nat
  mode : Nat
  ref : Bool
  rowsC : Nat
  slot : Nat
  first : Bool
  last : Bool
  lining : Bool
  outfmt : Nat
  sat : Bool
  cset : Nat
  stat : Bool
  mask : Nat
  trs : Bool
  trm : Bool
  fill : Bool
  spill : Bool
  kvalid : Nat
  coltile : Nat
  keep : Bool
  widen : Nat
  rsv : Nat
  deriving DecidableEq, Repr

def ArrWord.ofWord (w : Nat) : ArrWord where
  fmt := bits w 60 4
  mode := bits w 58 2
  ref := bit w 57
  rowsC := bits w 55 2
  slot := bits w 49 6
  first := bit w 48
  last := bit w 47
  lining := bit w 46
  outfmt := bits w 43 3
  sat := bit w 42
  cset := bits w 39 3
  stat := bit w 38
  mask := bits w 36 2
  trs := bit w 35
  trm := bit w 34
  fill := bit w 33
  spill := bit w 32
  kvalid := bits w 25 7
  coltile := bits w 13 12
  keep := bit w 12
  widen := bits w 10 2
  rsv := bits w 0 10

/-- Rows by R116. -/
def ArrWord.rows (w : ArrWord) : Nat :=
  match w.rowsC with
  | 0 => 64
  | 1 => 128
  | _ => 256

/-- The format the streaming operand is stored in: WIDEN's block format, or FMT (R130). -/
def ArrWord.stored (w : ArrWord) : Nat := if w.widen == 0 then w.fmt else w.widen - 1

def ArrWord.slotBytes (w : ArrWord) : Nat := slotSize w.rows w.mode

/-- The bytes of the output store that the word's slot occupies (R121). -/
def ArrWord.slotRange (w : ArrWord) : Nat × Nat := (w.slot * w.slotBytes, w.slotBytes)

/-- Bytes of a tile in tile layout (R197); a code with no format has none. -/
def tileBytes (fmt lines : Nat) : Nat := (TFmt.ofFmt fmt).elim 0 fun f => f.size lines 128

/-- The configuration of R133. -/
def ArrWord.config (w : ArrWord) : Nat × Nat × Bool := (w.fmt, w.mode, w.ref)

/-- A tile-store address is bits [23:0] of its register (R189). -/
def tsAddr (v : Nat) : Nat := v % 2 ^ 24

/-- A tile-store operand lies wholly within the tile store at its alignment (R117, R155, R440). -/
def tsFits (v n align : Nat) : Bool := tsAddr v % align == 0 && decide (tsAddr v + n ≤ tsSize)

def ArrWord.readsMask (w : ArrWord) : Bool := w.stat && w.last && w.mask == 1

/-- The tile-store ranges an operation reads and writes when it streams, and the mask it reads on emission. -/
def ArrOp.reads (o : ArrOp) : List (Nat × Nat) :=
  let w := ArrWord.ofWord o.word
  if o.cmb then [(tsAddr o.a, w.slotBytes)]
  else (if w.keep then [] else [(tsAddr o.a, tileBytes w.fmt 128)]) ++ [(tsAddr o.b, tileBytes w.stored w.rows)]
    ++ (if w.fill then [(tsAddr o.aux, w.slotBytes)] else [])

def ArrOp.masks (o : ArrOp) : List (Nat × Nat) :=
  let w := ArrWord.ofWord o.word
  if w.readsMask then [(tsAddr o.mask, 16 * w.rows)] else []

def ArrOp.writes (o : ArrOp) : List (Nat × Nat) :=
  let w := ArrWord.ofWord o.word
  if w.spill then [(tsAddr o.aux, w.slotBytes)] else []

/-- RESERVED_CODE of R117. -/
def ArrWord.reserved (w : ArrWord) : Bool :=
  decide (4 < w.fmt) || w.mode == 3 || w.rowsC == 3 || w.outfmt == 7 || w.mask == 3 || w.rsv != 0

/-- FMT of a block format. -/
def blockFmt (f : Nat) : Bool := decide (f ≤ 2)

/-- FMT and MODE codes of R116. -/
def afmtOf : Nat → Option AFmt
  | 0 => some .kx4
  | 1 => some .kx6
  | 2 => some .kx8
  | 3 => some .kx16
  | 4 => some .b32
  | _ => none

def amodeOf : Nat → Option AMode
  | 0 => some .wide
  | 1 => some .narrow
  | 2 => some .welt
  | _ => none

/-- FMT and MODE as R93 combines them; `lining` admits KX16 with NARROW. -/
def comboOk (f m : Nat) (lining : Bool) : Bool :=
  match afmtOf f, amodeOf m with
  | some f, some m => combOk f m || (lining && f == .kx16 && m == .narrow)
  | _, _ => false

/-- COMBINATION of R117. -/
def ArrWord.combination (w : ArrWord) : Bool :=
  !comboOk w.fmt w.mode w.lining || (w.widen != 0 && w.fmt != 3) || (w.trs && blockFmt w.fmt)
    || (w.trm && (blockFmt w.fmt || w.widen != 0))

/-- SLOT_CONTROL of R117 and R192. -/
def ArrWord.slotControl (w : ArrWord) (cmb : Bool) : Bool :=
  (w.first && w.fill) || (w.last && w.spill)
    || (w.lining && (w.first || w.mode == 2 || w.fmt != 3 || decide (63 < w.kvalid)))
    || (cmb && (w.first || w.fill || w.lining))

/-- The lowest code of R117 that an operation meets, zero for none; `held` is the configuration of the stationary tile that
will be held when it streams. -/
def ArrOp.issueCode (o : ArrOp) (held : Option (Nat × Nat × Bool)) : Nat :=
  let w := ArrWord.ofWord o.word
  if w.reserved then 1
  else if w.combination then 2
  else if 1048576 / w.slotBytes ≤ w.slot then 3
  else if w.slotControl o.cmb then 4
  else if w.keep && held != some w.config then 5
  else if (o.reads ++ o.masks ++ o.writes).all fun r => r.1 % 32 == 0 && decide (r.1 + r.2 ≤ tsSize) then 0
  else 6

/-- The configuration of the stationary tile after the operations that wait (R117 KEEP). -/
def Cluster.heldAfter (c : Cluster) : Option (Nat × Nat × Bool) :=
  c.arrQ.foldl (fun h o =>
      let w := ArrWord.ofWord o.word
      if o.cmb || w.keep then h else some w.config)
    (c.stat.map fun t => (t.fmt, t.mode, t.ref))

/-- The word agrees with its product table entry (R190). -/
def ArrWord.agrees (w : ArrWord) (p : Prod) : Bool := w.fmt == p.fmtA && w.mode == p.mode && w.stored == p.fmtB

/-! ## Chain operands (R148, R149, R191) -/

/-- A source or destination operand. -/
inductive ChainOpd where
  | reg (n : Nat)
  | mem (data scale : Nat)
  deriving DecidableEq, Repr

def ChainOpd.ofReg (v : Nat) : ChainOpd := if bit v 63 then .reg (bits v 0 5) else .mem (bits v 0 24) (bits v 32 24)

/-- Bytes and alignment of the data of E elements in a format code (R440). -/
def chainData (code e : Nat) : Nat × Nat :=
  match blkOfCode code with
  | some b => (ceilDiv e 32 * b.bytes, 32)
  | none => (e * elemBytes code, elemBytes code)

/-- The tile-store ranges of an operand, each with its alignment. -/
def ChainOpd.ranges (o : ChainOpd) (code e : Nat) : List (Nat × Nat × Nat) :=
  match o with
  | .reg _ => []
  | .mem d sc =>
    let (n, al) := chainData code e
    (d, n, al) :: (if (blkOfCode code).isSome then [(sc, ceilDiv e 32, 1)] else [])

def ChainOpd.isReg : ChainOpd → Bool
  | .reg _ => true
  | .mem _ _ => false

def ChainOp.ccw (o : ChainOp) : Ccw := Ccw.ofWord o.word
def ChainOp.from_ (o : ChainOp) : ChainOpd := ChainOpd.ofReg o.src.toNat
def ChainOp.to_ (o : ChainOp) : ChainOpd := ChainOpd.ofReg o.dst.toNat

/-- The records that SMX and SMXM read (R178). -/
def ChainOp.smxRange (o : ChainOp) : List (Nat × Nat × Nat) :=
  if o.ccw.enLog && o.ccw.isSmx then [(tsAddr o.x.toNat, 16 * ceilDiv o.e 128, 16)] else []

def ChainOp.srcRanges (o : ChainOp) : List (Nat × Nat × Nat) := if o.ccw.src == 7 then [] else o.from_.ranges o.ccw.src o.e
def ChainOp.dstRanges (o : ChainOp) : List (Nat × Nat × Nat) := o.to_.ranges o.ccw.dst o.e

/-- COMBINATION of R155. -/
def ChainOp.combination (o : ChainOp) : Bool :=
  let c := o.ccw
  (c.src != 7 && (blkOfCode c.src).isSome && o.from_.isReg) || ((blkOfCode c.dst).isSome && o.to_.isReg)
    || (c.rnd && c.dst != 3) || (c.isSmx && c.wp)
    || (!c.wp && decide (128 < o.e) && ((c.src == 1 && o.from_.isReg) || (c.dst == 1 && o.to_.isReg)))

/-- The lowest code of R155 that a pass meets, zero for none. The record address of a pass with SRC QUEUE is checked for
its alignment here, and for its extent when the tile whose records it takes is freed. -/
def ChainOp.issueCode (o : ChainOp) : Nat :=
  if o.ccw.reserved then 1
  else if o.combination then 2
  else if ((o.srcRanges ++ o.dstRanges ++ o.smxRange).all fun r => r.1 % r.2.2 == 0 && decide (r.1 + r.2.1 ≤ tsSize))
      && (o.ccw.src != 7 || tsAddr o.x.toNat % 16 == 0) then 0
  else 3

/-- The scalar register that Reduce writes, and with RACC reads. -/
def ChainOp.sreg (o : ChainOp) : Option Nat := if o.ccw.enRed then some o.sd else none

def plain (rs : List (Nat × Nat × Nat)) : List (Nat × Nat) := rs.map fun r => (r.1, r.2.1)

def ChainOp.reads (o : ChainOp) : List (Nat × Nat) := if o.e == 0 then [] else plain (o.srcRanges ++ o.smxRange)

/-- Tile-store bytes a pass may write: its destination, and the records of a tile it frees (at most 256 rows). -/
def ChainOp.writes (o : ChainOp) : List (Nat × Nat) :=
  if o.e == 0 then []
  else plain o.dstRanges ++ (if o.ccw.src == 7 && tsAddr o.x.toNat != 0 then [(tsAddr o.x.toNat, 4096)] else [])

/-! ## What stands in the way (R186) -/

/-- What an instruction that takes effect at issue touches. -/
structure Touch where
  tsR : List (Nat × Nat) := []
  tsW : List (Nat × Nat) := []
  devR : List (Nat × Nat) := []
  devW : List (Nat × Nat) := []
  sregs : List Nat := []
  deriving DecidableEq, Repr

def meets (xs ys : List (Nat × Nat)) : Bool := xs.any fun x => ys.any fun y => overlap x.1 x.2 y.1 y.2

/-- Ranges read and written conflict with an operation's. -/
def clash (r w r' w' : List (Nat × Nat)) : Bool := meets r w' || meets w r' || meets w w'

/-- An earlier operation of the context, still in flight, touches something this one does. -/
def State.hazard (s : State) (x k : Nat) (t : Touch) : Bool :=
  let c := s.cl x
  (c.arrQ.any fun o => o.ctx == k && clash t.tsR t.tsW (o.reads ++ o.masks) o.writes)
    || (c.emits.any fun e => e.op.ctx == k && clash t.tsR t.tsW e.op.masks [])
    || (c.chainQ.any fun o => o.ctx == k && (clash t.tsR t.tsW o.reads o.writes || o.sreg.any fun r => t.sregs.contains r))
    || (s.writes.any fun w => (w.cluster.any fun p => p.1 == x && p.2.1 == k)
        && (meets t.devR [(w.addr, w.bytes.length)] || meets t.devW [(w.addr, w.bytes.length)]))

/-- An operation of the context below an issue number has not yet taken effect (R202). -/
def State.inFlight (s : State) (x k before : Nat) : Bool :=
  let c := s.cl x
  (c.arrQ.any fun o => o.ctx == k && decide (o.n < before)) || (c.emits.any fun e => e.op.ctx == k && decide (e.op.n < before))
    || (c.chainQ.any fun o => o.ctx == k && decide (o.n < before))
    || (s.writes.any fun w => w.cluster.any fun p => p.1 == x && p.2.1 == k && decide (p.2.2 < before))

/-- The head array operation waits for an earlier operation of its context that touches the same bytes, or for its slot:
a value still being emitted or read through the tap (R123, R126). -/
def Cluster.arrBlocked (c : Cluster) (o : ArrOp) : Bool :=
  let w := ArrWord.ofWord o.word
  (c.chainQ.any fun p => p.ctx == o.ctx && decide (p.n < o.n) && clash (o.reads ++ o.masks) o.writes p.reads p.writes)
    || (c.emits.any fun e => e.op.ctx == o.ctx && decide (e.op.n < o.n) && meets o.writes e.op.masks)
    || (c.emits.any fun e => let v := ArrWord.ofWord e.op.word
          overlap w.slotRange.1 w.slotRange.2 v.slotRange.1 v.slotRange.2)
    || (c.tq.any fun t => t.tap && overlap w.slotRange.1 w.slotRange.2 (t.slot * slotSize t.rows t.mode) (slotSize t.rows t.mode))

/-- The head chain pass waits for an earlier array operation of its context that touches the same bytes. -/
def Cluster.chainBlocked (c : Cluster) (o : ChainOp) : Bool :=
  (c.arrQ.any fun p => p.ctx == o.ctx && decide (p.n < o.n) && clash o.reads o.writes (p.reads ++ p.masks) p.writes)
    || (c.emits.any fun e => e.op.ctx == o.ctx && decide (e.op.n < o.n) && meets o.writes e.op.masks)

end Sys2Proof.Machine
end

