-- ==== Sys2Proof/Machine/Array.lean ====
section
/-! DEFINITION. The stitching array and drain (R113 to R143): streaming an operation into its slot, and emitting a tile. -/

namespace Sys2Proof.Machine

/-! ## The edge (R127, R130) -/

/-- One line of 128 operand elements: as the cells hold them, and exactly as the reference columns take them (R108). -/
structure Line where
  opds : List Opd
  raw : List XVal
  deriving DecidableEq, Repr

/-- Zeroings and saturations. -/
abbrev ZS := Nat × Nat

/-- One element at the edge: split in WELT, widened to KX16, or as it is. -/
def edgeElem (cells stored : TFmt) (sat : Bool) (sc code : Nat) : Opd × XVal × ZS :=
  match stored with
  | .f32 =>
    let v := decodeF b32 code
    let (o, z, t) := weltSplit sat v
    (o, XVal.ofF v, z, t)
  | st =>
    let v := st.value sc code
    if st = cells then (⟨v, .zero⟩, v, 0, 0)
    else
      let e := encodeKx16 sat v
      (⟨kx16Value e.code, .zero⟩, kx16Value e.code, e.zeroed, e.saturated)

/-- Where element k of a line lies when the operand is stored across K: squares of 128 lines, each turned (R127). DESIGN
CHOICE, UNSAFE (log 64): a tile of 64 lines lies in rows of 64 elements, one of 256 lines in two squares in turn. -/
def turned (lines l k : Nat) : Nat :=
  let w := min lines 128
  l / 128 * 128 * w + k * w + l % 128

/-- Scale byte and code of element k of line l of a tile. -/
def tileElem (stored : TFmt) (trans : Bool) (rd : Nat → Nat → List Byte) (lines l k : Nat) : Nat × Nat :=
  if trans then stored.elem rd 0 1 (turned lines l k) 0 else stored.elem rd 0 128 l k

/-- One line of an operand; indices above KVALID are zero operands, neither converted nor counted (R94). -/
def edgeLine (cells stored : TFmt) (trans sat : Bool) (kv lines : Nat) (rd : Nat → Nat → List Byte) (l : Nat) : Line × ZS :=
  let es := (upTo 128).map fun k =>
    if k ≤ kv then
      let (sc, code) := tileElem stored trans rd lines l k
      edgeElem cells stored sat sc code
    else (⟨.zero, .zero⟩, .zero, 0, 0)
  (⟨es.map (·.1), es.map (·.2.1)⟩, (es.map (·.2.2.1)).sum, (es.map (·.2.2.2)).sum)

/-- Every line of an operand, with the counts of its conversions. -/
def edgeTile (cells stored : TFmt) (trans sat : Bool) (kv lines : Nat) (rd : Nat → Nat → List Byte) : List Line × ZS :=
  let ls := (upTo lines).map (edgeLine cells stored trans sat kv lines rd)
  (ls.map (·.1), (ls.map (·.2.1)).sum, (ls.map (·.2.2)).sum)

/-- Bytes of a list read as a memory. -/
def listRd (bs : List Byte) (a n : Nat) : List Byte := (bs.drop a).take n

/-! ## Slots (R120 to R122) -/

def accOf (mode : Nat) (bs : List Byte) : Acc :=
  match mode with
  | 1 => ⟨decodeF b16 (ofLE bs), fzero⟩
  | 2 => ⟨decodeF b32 (ofLE (bs.take 4)), decodeF b32 (ofLE (bs.drop 4))⟩
  | _ => ⟨decodeF b32 (ofLE bs), fzero⟩

def Acc.bytes (mode : Nat) (a : Acc) : List Byte :=
  match mode with
  | 1 => leBytes 2 (encodeF b16 a.h)
  | 2 => leBytes 4 (encodeF b32 a.h) ++ leBytes 4 (encodeF b32 a.w)
  | _ => leBytes 4 (encodeF b32 a.h)

/-- The accumulators that bytes of a slot hold. -/
def accsOf (mode : Nat) (bs : List Byte) : List Acc := (chunks (accBytes mode) bs.length bs).map (accOf mode)

def Cluster.slotBytesAt (c : Cluster) (w : ArrWord) : List Byte := readBytes c.ostore w.slotRange.1 w.slotRange.2

/-- A slot is emitted or spilled: freed, whichever commands have named it (R122, R124). -/
def Cluster.freeSlot (slot rows mode : Nat) (c : Cluster) : Cluster :=
  { c with slots := c.slots.map fun k => if k.slot == slot && k.rows == rows && k.mode == mode then { k with freed := true } else k }

/-- An operation names its slot, which its command holds until it is emitted or spilled (R123, R124, R145). -/
def Cluster.nameSlot (w : ArrWord) (cmd : Nat) (c : Cluster) : Cluster :=
  let k : Slot := ⟨w.slot, w.rows, w.mode, cmd, false⟩
  { c with
    slots := (c.slots.filter fun j => !(j.slot == w.slot && j.rows == w.rows && j.mode == w.mode && j.cmd == cmd)) ++ [k]
    lastNamed := (c.lastNamed.filter fun j => j.slot != w.slot) ++ [k] }

def amode (m : Nat) : AMode := (amodeOf m).getD .wide
def afmt (f : Nat) : AFmt := (afmtOf f).getD .kx8

/-! ## One pass (R94 to R108, R135) -/

/-- An output after a pass. A lining pass forms its pass value as KX16 WIDE (R135); the reference columns 0 to 3 are
computed in strict order (R108). -/
def passInto (w : ArrWord) (n : Nat) (a : Acc) (row col : Line) : Acc :=
  let m := amode w.mode
  if w.ref && decide (n < 4) then
    match m with
    | .narrow => a.add m (refPass fzero row.raw col.raw)
    | _ => ⟨refPass a.h row.raw col.raw, fzero⟩
  else a.add m (passValue (afmt w.fmt) (if w.lining then .wide else m) row.opds col.opds)

/-- Row-major accumulators after a pass of every row against every column (R113). -/
def passRows (w : ArrWord) (cols : List Line) : (rows : List Line) → List Acc → List Acc
  | [], accs => accs
  | r :: rs, accs =>
    (List.zipWith (fun (n, col) a => passInto w n a r col) ((upTo cols.length).zip cols) (accs.take 128))
      ++ passRows w cols rs (accs.drop 128)

/-- Blocks of 32 K indices of a tile with scale byte zero, by position along the line, up to KVALID. -/
def zeroBlocks (b : Blk) (rd : Nat → Nat → List Byte) (lines kv j : Nat) : Nat :=
  if 32 * j ≤ kv then ((upTo lines).filter fun l => ofLE (rd (b.place (4 * l + j)).1 1) == 0).length else 0

/-- Skipped slices of R132. -/
def bubbles (b : Blk) (cols rows : Nat → Nat → List Byte) (m kv kvs : Nat) : Nat :=
  ((upTo 4).map fun j =>
    let zr := zeroBlocks b rows m kv j
    let zc := zeroBlocks b cols 128 kvs j
    if 32 * j ≤ kv then zr * 128 + (m - zr) * zc else 0).sum

/-- The drain's action on a slot (R122): FIRST or FILL, the additions `f`, then SPILL; LAST is emitted later. -/
def Cluster.slotAct (o : ArrOp) (f : List Acc → List Acc) (c : Cluster) : Cluster :=
  let w := ArrWord.ofWord o.word
  let start := if w.first then List.replicate w.slotBytes 0
    else if w.fill then c.tsBytes (tsAddr o.aux) w.slotBytes
    else c.slotBytesAt w
  let out := (f (accsOf w.mode start)).flatMap (Acc.bytes w.mode)
  let c := { c with ostore := writeBytes c.ostore w.slotRange.1 out }
  let c := if w.spill then c.putTs (tsAddr o.aux) out else c
  let c := if w.last then { c with emits := c.emits ++ [⟨o⟩] } else c
  let c := c.nameSlot w o.cmd
  if w.spill then c.freeSlot w.slot w.rows w.mode else c

/-- Take the head array operation. -/
def Cluster.popArr (c : Cluster) : Cluster := { c with arrQ := c.arrQ.drop 1 }

/-- The stationary tile an operation loads, its K indices above KVALID zero operands (R94). DESIGN CHOICE, UNSAFE (log 63):
a KEEP pass with a greater KVALID still finds zero operands there. -/
def ArrOp.load (o : ArrOp) (c : Cluster) : Stationary :=
  let w := ArrWord.ofWord o.word
  ⟨w.fmt, w.mode, w.ref, w.trs, w.sat, w.kvalid, c.tsBytes (tsAddr o.a) (tileBytes w.fmt 128)⟩

/-- What is left of an operation's counts once it has streamed (R138). -/
def ArrWord.drnLeft (w : ArrWord) : DrnLeft := if w.last then .emission else .nothing

/-- One array operation streams (R119, R122, R133), with the cycles it streams and those its fence lasts. A KEEP pass uses
the stationary tile as its load left it, with the load's KVALID (R94: DESIGN CHOICE, UNSAFE, log 63). DESIGN CHOICE, UNSAFE
(R132, log 65): blocks of a streaming operand that WIDEN brings to KX16 are not counted as bubbles. -/
def Cluster.streamMxa (o : ArrOp) (st : Stationary) (cycles fence : Nat) (c : Cluster) : Cluster :=
  let w := ArrWord.ofWord o.word
  let cells := (TFmt.ofFmt w.fmt).getD .kx16
  let stored := (TFmt.ofFmt w.stored).getD .kx16
  let (cols, zc) := edgeTile cells cells st.trs st.sat st.kvalid 128 (listRd st.bytes)
  let rowRd := fun a n => c.tsBytes (tsAddr o.b + a) n
  let (rows, zr) := edgeTile cells stored w.trm w.sat w.kvalid w.rows rowRd
  let z := if w.keep then zr else (zc.1 + zr.1, zc.2 + zr.2)
  let changed := c.cfg.any fun f => f != w.config
  let bub := match cells with
    | .blk b => bubbles b (listRd st.bytes) rowRd w.rows w.kvalid (min w.kvalid st.kvalid)
    | _ => 0
  let c := c.slotAct o (passRows w cols rows)
  let c := c.countDrn w.cset o.n o.cmd { zeroed := z.1, saturated := z.2 } w.drnLeft
  { c with
    stat := some st
    cfg := some w.config
    busy := c.busy + cycles
    bubble := c.bubble + bub
    fences := sat32 (c.fences + b2n changed)
    fenceCycles := sat32 (c.fenceCycles + (if changed then fence else 0)) }

/-- Two piece values added (R105, R192): the addition of the slot's accumulators, but in WELT the reference columns 0 to 3
combine in binary32 and their welt is +0 (R108). -/
def combine (w : ArrWord) (n : Nat) (a b : Acc) : Acc :=
  if w.ref && w.mode == 2 && decide (n % 128 < 4) then a.add .wide b.h else a.add (amode w.mode) b.h b.w

/-- CMB (R192): the slot value at A added with the slot as the left operand. DESIGN CHOICE, UNSAFE (log 62): a CMB leaves
MXA_CONFIG and the configuration a fence compares with as they stand. -/
def Cluster.streamCmb (o : ArrOp) (c : Cluster) : Cluster :=
  let w := ArrWord.ofWord o.word
  let other := accsOf w.mode (c.tsBytes (tsAddr o.a) w.slotBytes)
  (c.slotAct o fun accs => (accs.zip other).mapIdx fun n p => combine w n p.1 p.2).countDrn w.cset o.n o.cmd {} w.drnLeft

/-- Tiles of the queue proper, and their bytes (R158). -/
def Cluster.queued (c : Cluster) : List Tile := c.tq.filter fun t => !t.tap
def Cluster.queuedBytes (c : Cluster) : Nat := (c.queued.map fun t => t.bytes.length).sum

/-- Bytes of an emitted tile (R125). -/
def ArrWord.emitBytes (w : ArrWord) : Nat :=
  match w.outfmt with
  | 0 => w.slotBytes
  | 1 => 512 * w.rows
  | 2 | 3 => 256 * w.rows
  | f => (blkOfCode f).elim 0 fun b => 4 * w.rows / 32 * b.group

/-- The queue, or under TAP the record buffer of 4 KiB, has room for the tile (R126, R158, R161). -/
def Cluster.accepts (c : Cluster) (w : ArrWord) : Bool :=
  if c.tap then !w.stat || decide ((c.tq.map fun t => t.records.length).sum + 16 * w.rows ≤ 4096)
  else decide (c.queued.length < 8) && decide (c.queuedBytes + w.emitBytes ≤ 524288)

/-- The array stops in lockstep while the drain holds a tile (R126), and at a change of configuration until every emission
of the old one, and every conversion that a slot behind the tap still awaits, is complete (R133, R161). -/
def Cluster.lockstep (c : Cluster) (o : ArrOp) : Bool :=
  (c.emits.head?.any fun e => !c.accepts (ArrWord.ofWord e.op.word))
    || (!o.cmb && (c.cfg.any fun f => f != (ArrWord.ofWord o.word).config) && (!c.emits.isEmpty || c.tq.any (·.tap)))

/-- ARRAY_OP_STREAM (R119): the oldest operation of the array's queue streams. -/
def execArrayOpStream (t : Nat) (x : Fin 144) (cycles fence : Nat) (s : State) : Host.Outcome State Fault Refusal :=
  done <|
    let c := s.cl x
    match c.arrQ with
    | [] => s
    | o :: _ =>
      if c.arrBlocked o || c.lockstep o then s
      else
        let s := tick t s
        let w := ArrWord.ofWord o.word
        if o.cmb then onCl x (fun c => c.popArr.streamCmb o) s
        else if w.keep then
          match c.stat with
          | some st =>
            if (st.fmt, st.mode, st.ref) == w.config then onCl x (fun c => c.popArr.streamMxa o st cycles fence) s
            else programErrorOf x o.ctx o.cmd 4 o.pc (onCl x (fun c => { c with mxaErr := c.mxaErr.add 5 o.ctx o.pc }) s)
          | none => programErrorOf x o.ctx o.cmd 4 o.pc (onCl x (fun c => { c with mxaErr := c.mxaErr.add 5 o.ctx o.pc }) s)
        else onCl x (fun c => c.popArr.streamMxa o (o.load c) cycles fence) s

/-! ## Output conversion (R125) -/

/-- The exact final value of an accumulator: h + w for a pair. -/
def Acc.final (mode : Nat) (a : Acc) : XVal :=
  if mode == 2 && a.h.isFinite then XVal.ofDy (Dy.add a.h.dy a.w.dy) else XVal.ofF a.h

/-- A run of 32 consecutive outputs as emitted: scale byte of a block, bytes, and what the conversion counts. -/
structure ConvUnit where
  scale : Nat
  bytes : List Byte
  cnt : DrnCnt
  deriving DecidableEq, Repr

/-- The conversion of 32 consecutive outputs of a row. -/
def convUnit (s : State) (outfmt mode : Nat) (sat : Bool) (accs : List Acc) : ConvUnit :=
  let fin := accs.map (Acc.final mode)
  match outfmt with
  | 0 => ⟨0, accs.flatMap (Acc.bytes mode), {}⟩
  | 1 => ⟨0, accs.flatMap fun a => leBytes 4 (encodeF b32 (plusZero a.h)), {}⟩
  | 2 => ⟨0, fin.flatMap fun v => leBytes 2 (encodeF b16 (plusZero (v.toF b16))), {}⟩
  | 3 =>
    let es := fin.map (encodeKx16 sat)
    ⟨0, es.flatMap fun e => leBytes 2 e.code,
      { zeroed := (es.map Enc.zeroed).sum, saturated := (es.map Enc.saturated).sum }⟩
  | f =>
    match blkOfCode f with
    | some b =>
      let e := encodeBlock b sat fin
      ⟨e.scale, b.pack e.codes,
        { zeroed := e.zeroed, saturated := e.saturated, fallback := b2n (s.fallsBack e.saturated e.zeroed) }⟩
    | none => ⟨0, [], {}⟩

def convUnits (s : State) (outfmt mode : Nat) (sat : Bool) (slot : List Byte) : List ConvUnit :=
  (chunks 32 slot.length (accsOf mode slot)).map (convUnit s outfmt mode sat)

/-- The emitted tile: block formats in the layout of R81, a line for each row. -/
def unitsBytes (outfmt : Nat) (us : List ConvUnit) : List Byte :=
  if (blkOfCode outfmt).isSome then
    (chunks 32 us.length us).flatMap fun g => (g.map fun u => BitVec.ofNat 8 u.scale) ++ g.flatMap (·.bytes)
  else us.flatMap (·.bytes)

def unitsCnt (us : List ConvUnit) : DrnCnt := us.foldl (fun n u => n.merge u.cnt) {}

/-! ## Row statistics (R139 to R143) -/

/-- The masked entries of R140. -/
def maskedAt (w : ArrWord) (maskReg : Nat) (tile : List Byte) (r c : Nat) : Bool :=
  match w.mask with
  | 1 => bit ((tile.getD (16 * r + c / 8) 0).toNat) (c % 8)
  | 2 => decide ((r : Int) + signed64 maskReg < 128 * w.coltile + c)
  | _ => false

/-- The run's rows before a tile updates them, with SEQ_ERR: a new run, the next tile of it, or a broken rule (R139). -/
def StatRun.enter (coltile rows : Nat) (r : StatRun) : List StatRow × Bool :=
  if coltile == 0 then (List.replicate rows {}, r.seqErr)
  else if r.active && coltile == r.next && r.rows.length == rows then (r.rows, r.seqErr)
  else
    let old := if r.active then (r.rows.take rows).map StatRow.toNaN else []
    (padTo rows (({} : StatRow).toNaN) old, true)

/-- A tile updates the run: live values of each row. -/
def StatRun.update (coltile rows cmd : Nat) (live : List (List FVal)) (r : StatRun) : StatRun :=
  let (start, err) := r.enter coltile rows
  { active := true
    next := coltile + 1
    seqErr := err
    cmd := if coltile == 0 || !r.active then cmd else r.cmd
    rows := List.zipWith (fun ys row => row.tile ys) live start }

/-! ## TILE_EMIT -/

/-- The live values of each row of a slot, for the statistics: the accumulator, or h of a pair (R141). -/
def liveRows (w : ArrWord) (maskReg : Nat) (tile : List Byte) (accs : List Acc) : List (List FVal) :=
  (chunks 128 w.rows accs).mapIdx fun r row =>
    ((row.mapIdx fun c a => (c, a.h)).filter fun p => !maskedAt w maskReg tile r p.1).map (·.2)

/-- The drain emits the tile of a slot (R125, R137, R143, R158, R161). Under TAP the slot waits unconverted; the counts of
its conversion stand once it has been read. -/
def emitTile (s : State) (o : ArrOp) (c : Cluster) : Cluster :=
  let w := ArrWord.ofWord o.word
  let slot := c.slotBytesAt w
  let accs := accsOf w.mode slot
  let n : DrnCnt := { outInf := (accs.filter fun a => a.h.isInf).length, outNan := (accs.filter fun a => a.h.isNaN).length }
  let run := if w.stat then
      c.run.update w.coltile w.rows o.cmd (liveRows w o.mask (c.tsBytes (tsAddr o.mask) (16 * w.rows)) accs)
    else c.run
  let n := if w.stat then
      { n with emptyRows := (run.rows.filter fun r => r.state == .empty).length
               nanRows := (run.rows.filter fun r => r.state == .nan).length }
    else n
  let records := if w.stat then run.rows.flatMap StatRow.record else []
  let us := convUnits s w.outfmt w.mode w.sat slot
  let tile : Tile := ⟨w.slot, o.cmd, w.outfmt, w.mode, w.sat, w.rows, if c.tap then slot else unitsBytes w.outfmt us, records, 0,
    w.cset, c.tap, o.n⟩
  let c := c.countDrn w.cset o.n o.cmd (n.merge (unitsCnt us)) (if c.tap then .tapRead else .nothing)
  let c := { c with run := run, tq := c.tq ++ [tile], emits := c.emits.drop 1 }
  if c.tap then c else c.freeSlot w.slot w.rows w.mode

/-- TILE_EMIT: the tile of the oldest LAST operation enters the tile queue, once the queue accepts it (R125, R126). -/
def execTileEmit (t : Nat) (x : Fin 144) (s : State) : Host.Outcome State Fault Refusal :=
  done <|
    match (s.cl x).emits with
    | [] => s
    | e :: _ =>
      if (s.cl x).accepts (ArrWord.ofWord e.op.word) then onCl x (emitTile s e.op) (tick t s) else s

end Sys2Proof.Machine
end

