-- ==== Sys2Proof/Machine/Rng.lean ====
section
/-! DEFINITION. The counter-based generator (R261). -/

namespace Sys2Proof.Machine

/-- A 32-bit word rotated left by n. -/
def rotl32 (n w : Nat) : Nat := (w * 2 ^ n + w / 2 ^ (32 - n)) % 2 ^ 32

/-- c[r] of R261. -/
def rngConst (r : Nat) : Nat := (r + 1) * 0x9E3779B9 % 2 ^ 32

/-- The rounds of R261 from round r on; `n` rounds remain. -/
def rngRounds (k0 k1 : Nat) : (n r x0 x1 x2 x3 : Nat) → Nat
  | 0, _, x0, _, x2, _ => Nat.xor x0 x2
  | n + 1, r, x0, x1, x2, x3 =>
    let x0 := (x0 + x1 + (if r % 2 == 0 then k0 else k1)) % 2 ^ 32
    let x3 := rotl32 16 (Nat.xor x3 x0)
    let x2 := (x2 + x3 + rngConst r) % 2 ^ 32
    let x1 := rotl32 12 (Nat.xor x1 x2)
    rngRounds k0 k1 n (r + 1) x0 x1 x2 x3

/-- rng(key, t, q, p) of R261. -/
def rng (key t q p : Nat) : Nat :=
  rngRounds (key % 2 ^ 32) (key / 2 ^ 32 % 2 ^ 32) 6 0 (p % 2 ^ 32) (t % 2 ^ 32) (q % 2 ^ 32) (q / 2 ^ 32 % 2 ^ 32)

end Sys2Proof.Machine
end

