-- ==== Sys2Proof/Machine/TrainingCore.lean ====
section
/-! DEFINITION. Training slots (R242 to R275, R442, R443): steps, the local flag, the verdict with the loss scale and the
format fallback of the next step, state blocks, step records, replay, and the checkpoint's abort (R370). -/

namespace Sys2Proof.Machine

/-! ## Registers -/

def trnAddr (n off : Nat) : Nat := hubAddr 6 (0x400 + 0x80 * n + off)

def State.trnOn (s : State) (n : Nat) : Bool := bit (s.reg (trnAddr n 0x00)) 31
def State.trnJob (s : State) (n : Nat) : Nat := bits (s.reg (trnAddr n 0x00)) 0 16
def State.trnReplay (s : State) (n : Nat) : Bool := bit (s.reg (trnAddr n 0x04)) 2
def State.trnFlag (s : State) (n : Nat) : Nat := s.reg64 (trnAddr n 0x40)
def State.trnState (s : State) (n : Nat) : Nat := s.reg64 (trnAddr n 0x4C)
def State.trnRec (s : State) (n : Nat) : Nat := s.reg64 (trnAddr n 0x54)
def State.trnRpl (s : State) (n : Nat) : Nat := s.reg64 (trnAddr n 0x60)
def State.trnRing (s : State) (n : Nat) : Nat := bits (s.reg (trnAddr n 0x5C)) 16 16
def State.trnStride (s : State) (n : Nat) : Nat := 1024 * bits (s.reg (trnAddr n 0x5C)) 0 16
def State.trnTable (s : State) (n : Nat) : Nat := s.reg64 (trnAddr n 0x34)
def State.trnLayers (s : State) (n : Nat) : Nat := bits (s.reg (trnAddr n 0x3C)) 0 13

/-- The address of step c's record in a ring (R269, R271). -/
def State.recordAt (s : State) (n ring c : Nat) : Nat := ring + c % (max 1 (s.trnRing n)) * s.trnStride n

/-- TRN_MEM_ERR (R443). -/
def memErr (n what : Nat) (s : State) : State := note 0x0309 2 s.tsc.now srcFirmware (s.trnJob n) 0 what s

/-- Change one step of a slot. -/
def onStep (n k : Nat) (f : TStep → TStep) (s : State) : State :=
  onSlot n (fun t => { t with steps := updateWhere (fun x => x.num == k) f t.steps }) s

def TSlot.collecting (t : TSlot) : Option TStep := t.steps.find? fun x => x.phase == .collecting

/-! ## Steps -/

/-- Every logical cluster's counter sets, latched (R243, R245). -/
def State.latchSets (s : State) : List Latch :=
  s.clusters.filterMap fun c => c.logical.map fun l => ⟨l, c.lch, c.drn⟩

def TStep.fresh (num : Nat) (latch : List Latch) : TStep where
  num := num
  phase := .collecting
  seed := 0
  exp := 0
  stash := 0
  span := 0
  added := 0
  prev := 0
  modes := 0
  latch := latch
  flag := false
  votingAt := 0
  verdict := none
  verdictAt := 0
  verdictStitch := 0
  expNext := 0
  cleanAfter := 0
  firstStitch := none
  missing := false
  halted := false
  diverged := false
  discarded := 0
  fb := []
  standins := []
  dlogOvf := false
  rplVerdict := none
  noRecord := false

/-- A step becomes COLLECTING: its flag word zero, its counters latched. -/
def openStep (n num : Nat) (s : State) : State :=
  let a := s.trnFlag n + 8 * (num % 2)
  let s := if s.settable a 8 then hubWrite a (leBytes 8 0) s else memErr n 0 s
  let s := setReg (trnAddr n 0x10) (num % 2 ^ 32) (setReg (trnAddr n 0x14) (num / 2 ^ 32 % 2 ^ 32) s)
  onSlot n (fun t => { t with steps := t.steps ++ [TStep.fresh num s.latchSets] }) s

/-! ## The local flag (R245) -/

def Latch.rises (w : Nat) (l : Latch) (c : Cluster) : Bool :=
  (upTo 8).any fun i =>
    (bit w i && lchRisen (l.lch.getD i {}) (c.lch.getD i {})) || (bit w (8 + i) && drnRisen (l.drn.getD i {}) (c.drn.getD i {}))

/-- Some watched counter has risen since it was latched, or reads 0xFFFF_FFFF. -/
def State.watchRisen (s : State) (n : Nat) (x : TStep) : Bool :=
  let w := s.reg (trnAddr n 0x48)
  s.clusters.any fun c => match c.logical with
    | some l => ((x.latch.find? fun k => k.logical == l).getD ⟨l, c.lch, c.drn⟩).rises w c
    | none => false

def State.flagWordAt (s : State) (n c : Nat) : Nat := s.trnFlag n + 8 * (c % 2)

/-- The flag word is unreadable or nonzero. -/
def State.flagWordSet (s : State) (n c : Nat) : Bool :=
  !s.usable (s.flagWordAt n c) 8 || s.devNum (s.flagWordAt n c) 8 != 0

def State.localFlag (s : State) (n : Nat) (x : TStep) : Bool := x.flag || s.flagWordSet n x.num || s.watchRisen n x

/-! ## Loss scale (R252, R253) -/

/-- The table of R252: E and n after, and whether TRN_SCALE_FLOOR is sent. -/
def scaleTable (e n interval : Nat) (overflow : Bool) : Nat × Nat × Bool :=
  if overflow then (e - 1, 0, e == 0)
  else if n + 1 < interval then (e, n + 1, false)
  else (min 24 (e + 1), 0, false)

/-- E and n of the next step, by mode. -/
def State.nextScale (s : State) (n e : Nat) (overflow : Bool) : Nat × Nat × Bool :=
  let t := s.slot n
  if s.hostScale then (t.expWrite.getD e, t.clean, false)
  else match t.expWrite with
    | some v => (v, 0, false)
    | none => scaleTable e t.clean (bits (s.reg (trnAddr n 0x20)) 16 16) overflow

/-! ## Stash (R264) -/

def State.stashMode (s : State) (n : Nat) : Nat :=
  let r := s.reg (trnAddr n 0x28)
  match bits r 0 2 with
  | 0 => if 1 < bits r 24 8 || bits (s.reg 0x60104) 0 16 < bits r 8 16 then 2 else 1
  | m => m

/-! ## Format fallback (R266, R267) -/

def State.layer (s : State) (n i : Nat) : Layer :=
  let a := s.trnTable n + 8 * i
  ⟨s.devNum a 1, s.devNum (a + 1) 1, s.devNum (a + 2) 2⟩

def State.layers (s : State) (n : Nat) : List Layer := (upTo (s.trnLayers n)).map (s.layer n)

def Layer.bytes (l : Layer) : List Byte := leBytes 1 l.req ++ leBytes 1 l.state ++ leBytes 2 l.left ++ leBytes 4 0

def Layer.wants (l : Layer) : Bool := l.req != 0 || l.left != 0

/-- decide()'s loop: `cap` wanted layers are still to be granted; the count of layers left NARROW_DEGRADED is carried. -/
def grantLayers (ret : Nat) : (cap : Nat) → List Layer → List Layer × Nat
  | _, [] => ([], 0)
  | cap, l :: ls =>
    if !l.wants then
      let (r, k) := grantLayers ret cap ls
      (⟨0, 0, l.left⟩ :: r, k)
    else match cap with
      | cap + 1 =>
        let (r, k) := grantLayers ret cap ls
        let left := if l.req != 0 then (if ret == 0 then 0xFFFF else ret) else if l.left != 0xFFFF then l.left - 1 else l.left
        (⟨0, 1, left⟩ :: r, k)
      | 0 =>
        let (r, k) := grantLayers ret 0 ls
        (⟨0, 2, l.left⟩ :: r, k + 1)

/-- What decide() settles: the table after, the stitches added, layers left narrow, or the wanted count when it halts. -/
inductive Fallback where
  | stop (wanted : Nat)
  | go (table : List Layer) (added narrow : Nat)
  deriving DecidableEq, Repr

def decideFallback (grant span policy ret : Nat) (t : List Layer) : Fallback :=
  let want := (t.filter Layer.wants).length
  let cap := grant * span
  if want ≤ cap then let (r, k) := grantLayers ret cap t; .go r 0 k
  else if policy == 2 then .stop want
  else
    let added := if policy == 0 then min (ceilDiv (want - cap) grant) (255 - span) else 0
    let (r, k) := grantLayers ret (grant * (span + added)) t
    .go r added k

/-- The device itself writes the table: it decides, or the record of a replay does (R267, R271). -/
def State.tableWritten (s : State) (n : Nat) : Bool := s.trnReplay n || !s.hostFallback

/-- The table lies where the device can use it (R443); an empty table needs no memory. -/
def State.tableOk (s : State) (n : Nat) : Bool :=
  let a := s.trnTable n
  let k := 8 * s.trnLayers n
  s.usable a k && (!s.tableWritten n || s.settable a k)

def writeTable (n : Nat) (t : List Layer) (s : State) : State :=
  if t.isEmpty then s else hubWrite (s.trnTable n) (t.flatMap Layer.bytes) s

/-- The decision in hardware mode; an unreadable table holds no request and is not written. -/
def State.fallback (s : State) (n : Nat) : Fallback :=
  let fb := s.reg (trnAddr n 0x2C)
  let t := if s.tableOk n then s.layers n else []
  decideFallback (bits fb 16 16) (bits fb 8 8) (bits fb 0 2) (bits (s.reg (trnAddr n 0x30)) 0 16) t

/-- Fallback elements: layers whose STATE is not NARROW (R270). -/
def State.fbElements (s : State) (n : Nat) : List (Nat × Nat) :=
  if !s.tableOk n then []
  else (upTo (s.trnLayers n)).filterMap fun i => if (s.layer n i).state == 0 then none else some (i, (s.layer n i).state)

/-! ## Replay (R271) -/

/-- A record's values for a replay. -/
structure Rpl where
  seed : Nat
  exp : Nat
  stash : Nat
  added : Nat
  verdict : Nat
  fb : List (Nat × Nat)
  deriving DecidableEq, Repr

/-- The record of step c at TRN_RPL, when it can be read and names c. -/
def State.rplRecord (s : State) (n c : Nat) : Option Rpl :=
  let a := s.recordAt n (s.trnRpl n) c
  let nfb := s.devNum (a + 0x34) 4
  if s.usable a 0x60 && s.usable (a + 0x60) (4 * nfb) && s.devNum (a + 0x08) 8 == c then
    some { seed := s.devNum (a + 0x10) 8, exp := s.devNum (a + 0x28) 1, stash := s.devNum (a + 0x2C) 1
           added := s.devNum (a + 0x2F) 1, verdict := s.devNum (a + 0x2D) 1
           fb := (upTo nfb).map fun i => (s.devNum (a + 0x62 + 4 * i) 2, s.devNum (a + 0x61 + 4 * i) 1) }
  else none

/-- A byte that a replay must read of step c's record cannot be read (R443). -/
def State.rplUnreadable (s : State) (n c : Nat) : Bool :=
  let a := s.recordAt n (s.trnRpl n) c
  !s.usable a 0x60 || (s.devNum (a + 0x08) 8 == c && !s.usable (a + 0x60) (4 * s.devNum (a + 0x34) 4))

/-- The fallback table as a record gives it: REQ zero, LEFT unchanged. -/
def rplTable (r : Rpl) : (i : Nat) → List Layer → List Layer
  | _, [] => []
  | i, l :: ls => ⟨0, ((r.fb.find? fun e => e.1 == i).map (·.2)).getD 0, l.left⟩ :: rplTable r (i + 1) ls

/-- The slot diverges: DIVERGE, TRN_DIVERGE and a halt. -/
def diverge (n c : Nat) (s : State) : State :=
  note 0x0308 2 s.tsc.now srcFirmware (s.trnJob n) 0 c
    (onStep n c (fun x => { x with diverged := true }) (onSlot n (fun t => { t with diverge := true, halt := some .diverge }) s))

/-! ## State blocks (R247, R248) -/

def State.modesByte (s : State) (n : Nat) : Nat :=
  b2n s.hostScale + 2 * b2n s.hostFallback + 4 * b2n s.hostRandom + 8 * b2n (s.trnReplay n)

def stateBlock (x : TStep) : List Byte :=
  leBytes 8 x.num ++ leBytes 8 x.seed ++ leBytes 1 x.exp ++ leBytes 1 x.stash ++ leBytes 1 x.span ++ leBytes 1 x.prev
    ++ leBytes 1 x.modes ++ leBytes 11 0

/-- Settle and write the state block of step c of slot n: E and the stitches added as decided, PREV as given; in a replay
the record of c gives them and the table. `first` leaves the table as the host has written it. The registers show E and the
stash mode of the latest block written (R253, R264). -/
def writeBlock (n c e added prev : Nat) (first : Bool) (s : State) : State :=
  let rpl := s.trnReplay n
  let r := if rpl then s.rplRecord n c else none
  let s := if rpl && r.isNone then diverge n c (if s.rplUnreadable n c then memErr n 4 s else s) else s
  let s := match r with
    | some r => if first then s else if s.tableOk n then writeTable n (rplTable r 0 (s.layers n)) s else memErr n 3 s
    | none => s
  let span := bits (s.reg (trnAddr n 0x2C)) 8 8
  let add := (r.map (·.added)).getD added
  let exp := (r.map (·.exp)).getD e
  let stash := (r.map (·.stash)).getD (s.stashMode n)
  let fb := s.fbElements n
  let modes := s.modesByte n
  let s := onStep n c (fun x => { x with
    seed := (r.map (·.seed)).getD (s.reg64 (trnAddr n 0x18))
    exp := exp
    stash := stash
    span := min 255 (span + add)
    added := add
    prev := prev
    modes := modes
    fb := fb
    rplVerdict := r.map (·.verdict) }) s
  match (s.slot n).find c with
  | some x =>
    let a := s.trnState n + 32 * (c % 2)
    if s.settable a 32 then hubWrite a (stateBlock x) (onSlot n (fun t => { t with exp := exp, effect := stash }) s)
    else memErr n 1 s
  | none => s

/-! ## The verdict (R246, R249, R252, R267, R271) -/

/-- Update commands bound to a step that have not ended. -/
def State.updatesOf (s : State) (n c : Nat) : List Nat := s.cmdIds fun k => k.live && k.fenced && k.step == some (n, c)

/-- The rest of a verdict, once the fallback of the next step is settled: `ovf` is the verdict used. -/
def stampVerdict (n c : Nat) (ovf missing : Bool) (added narrow : Nat) (s : State) : State :=
  let job := s.trnJob n
  let t := s.tsc.now
  let ex := ((s.slot n).find c).elim 0 (·.exp)
  let (e, k, floor) := s.nextScale n ex ovf
  let s := if floor then note 0x0301 1 t srcFirmware job 0 c s else s
  let s := if added == 0 then s else note 0x0303 1 t srcFirmware job 0 added s
  let s := if narrow == 0 then s else note 0x0304 1 t srcFirmware job 0 narrow s
  let s := writeBlock n (c + 1) e added (if ovf then 2 else 1) false s
  let enew := ((s.slot n).find (c + 1)).elim e (·.exp)
  let s := onSlot n (fun t => { t with clean := k, expWrite := none, pendFlag := none,
                                       overflows := sat32 (t.overflows + b2n ovf) }) s
  let s := onStep n c (fun x => { x with
    phase := .decided
    verdict := some ovf
    verdictAt := t
    verdictStitch := s.stitchAt t
    expNext := enew
    cleanAfter := k
    missing := missing }) s
  let s := note 0x0300 0 t srcFirmware job 0 (enew * 2 ^ 24 + b2n ovf) s
  if ovf then forEach (s.updatesOf n c) discard s else s

/-! ## What waits for a captured page (R247, R248, R368, R369) -/

def State.blockAt (s : State) (n c : Nat) : Nat := s.trnState n + 32 * (c % 2)

/-- The first flag word and the state block of step c, which setting EN writes, cannot all be written yet (R248). -/
def State.enableWaits (s : State) (n c : Nat) : Bool :=
  s.hubWaitsAll ([(s.flagWordAt n c, 8), (s.blockAt n c, 32)].filter fun r => s.settable r.1 r.2)

/-- The state block that the verdict of step c writes, and the table where it writes one, cannot both be written yet (R247). -/
def State.verdictWaits (s : State) (n c : Nat) : Bool :=
  s.hubWaitsAll ((if s.settable (s.blockAt n (c + 1)) 32 then [(s.blockAt n (c + 1), 32)] else [])
    ++ (if s.tableWritten n && s.tableOk n then [(s.trnTable n, 8 * s.trnLayers n)] else []))

/-- A verdict whose fallback is settled: the table is written, and the verdict stamped. -/
def settleVerdict (n c : Nat) (ovf missing : Bool) (t : List Layer) (added narrow : Nat) (s : State) : State :=
  stampVerdict n c ovf missing added narrow (if s.tableOk n then writeTable n t s else s)

/-- The verdict of step c of slot n, from the reduced flag; it is stamped once the next state block can be written (R247).
Under STOP the decision halts and waits for RESUME. -/
def verdict (n c : Nat) (flag missing : Bool) (s : State) : State :=
  match (s.slot n).find c with
  | none => s
  | some x =>
    if x.phase != .voting || (s.slot n).pendFlag.isSome || (s.slot n).late.isSome || (s.slot n).halt == some .verdictLost then s
    else if s.verdictWaits n c then onSlot n (fun t => { t with late := some ⟨flag, missing, none⟩ }) s
    else
    let ovf := match x.rplVerdict with
      | some v => v == 2
      | none => flag
    let s := if x.rplVerdict.isSome && ovf != flag then diverge n c s else s
    let s := if s.tableOk n || s.trnReplay n then s else memErr n 3 s
    if s.trnReplay n || s.hostFallback then stampVerdict n c ovf missing 0 0 s
    else
      match s.fallback n with
      | .stop w =>
        note 0x0305 2 s.tsc.now srcFirmware (s.trnJob n) 0 w
          (onStep n c (fun x => { x with halted := true })
            (onSlot n (fun t => { t with halt := some (t.halt.getD .stop), pendFlag := some (ovf, missing) }) s))
      | .go t added narrow =>
        settleVerdict n c ovf missing t added narrow s

/-- RESUME (R268): the decision again, with the registers as they stand; it clears the halt if it succeeds. What it writes may
still have to wait. -/
def resumeSlot (n : Nat) (s : State) : State :=
  match (s.slot n).halt, (s.slot n).pendFlag, (s.slot n).steps.find? fun x => x.phase == .voting with
  | some .stop, some (ovf, missing), some x =>
    let s := if s.tableOk n then s else memErr n 3 s
    match s.fallback n with
    | .stop _ => s
    | .go t added narrow =>
      if s.verdictWaits n x.num then
        onSlot n (fun k => { k with halt := none, pendFlag := none, late := some ⟨ovf, missing, some (t, added, narrow)⟩ }) s
      else settleVerdict n x.num ovf missing t added narrow (onSlot n (fun t => { t with halt := none }) s)
  | _, _, _ => s

/-- A verdict instance whose reduced flag is known gives its verdict (R246, R295). -/
def checkVote (g step : Nat) (s : State) : State :=
  match (s.group g).inst 0xFFF 0 step with
  | some i =>
    match i.final, i.shards with
    | some _, [(0, flag), (1, miss)] =>
      if i.ended.isSome then s else
      match s.slotOf (s.gcfg g).job with
      | some n =>
        if ((s.slot n).find step).any fun x => x.phase == .voting then
          verdict n step (flag == 1) (miss == 1) (onInst g 0xFFF 0 step (fun i => { i with ended := some 0 }) s)
        else s
      | none => s
    | _, _ => s
  | none => s

/-- Progress on any instance, with the verdict where it is one. -/
def advanceAny (g e k step : Nat) (s : State) : State :=
  let s := advance g e k step s
  if e == 0xFFF then checkVote g step s else s

/-! ## Voting (R243, R295, R300) -/

/-- Forward and backward commands bound to a step that have not ended. -/
def State.workOf (s : State) (n c : Nat) : List Nat := s.cmdIds fun k => k.live && !k.fenced && k.step == some (n, c)

/-- A slot's vote takes its place in the verdict reduction (R295), or waits for one on the port (R294). -/
def joinVote (n : Nat) (s : State) : State :=
  match s.groupOf (s.trnJob n), (s.slot n).steps.find? fun x => x.phase == .voting with
  | some g, some x =>
    let c := x.num
    if !s.mayHold g 0xFFF 0 c then { s with voteWaits := s.voteWaits ++ [n] }
    else
      let s := ensureInst g 0xFFF 0 c (onGroup g (fun r => { r with
        insts := r.insts.filter fun i => !(i.named 0xFFF 0 c && i.ended.isSome) }) s)
      advanceAny g 0xFFF 0 c
        (onInst g 0xFFF 0 c (fun i => { i with triggered := true, dec := 1, own := [b2n x.flag] }) s)
  | _, _ => s

/-- The step of a slot that may enter VOTING: CLOSING, its work ended, the step before it RETIRED. -/
def State.readyToVote (s : State) (n : Nat) : Option TStep :=
  ((s.slot n).steps.find? fun x => x.phase != .retired).bind fun x =>
    if x.phase == .closing && (s.workOf n x.num).isEmpty then some x else none

def startVote (n : Nat) (x : TStep) (s : State) : State :=
  let c := x.num
  let s := if s.usable (s.flagWordAt n c) 8 then s else memErr n 0 s
  let flag := s.localFlag n x
  let s := onStep n c (fun y => { y with phase := .voting, votingAt := s.tsc.now, flag := flag }) s
  match s.groupOf (s.trnJob n) with
  | none => verdict n c flag false s
  | some g =>
    if (s.gcfg g).nrank ≤ 1 then verdict n c flag false s
    else if s.hostReduce then note 0x0408 0 s.tsc.now srcFirmware (s.trnJob n) 0 (0xFFF * 65536) s
    else joinVote n s

/-! ## Step records (R269, R270, R298) -/

/-- Contributor elements: reductions sent by commands bound to the step. -/
def State.contributors (s : State) (job c : Nat) : List Inst :=
  match s.groupOf job with
  | some g => (s.group g).insts.filter fun i =>
      i.triggered && i.step == c && i.entry != 0xFFF
        && ((i.cmd.bind fun id => s.cmds[id]?).bind fun k => k.step).isSome
  | none => []

def Inst.statusCode (i : Inst) : Nat := i.ended.getD 4

/-- NIN: FINAL's count; an instance that gets no FINAL, a BCAST or one that failed before it, has the ranks IN that are
known here. -/
def Inst.nin (i : Inst) (rank : Nat) : Nat := (i.final.map (·.1)).getD (i.inRanks rank).length

def Inst.element (i : Inst) (nrank rank : Nat) : List Byte :=
  let st := i.statusCode
  leBytes 2 i.entry ++ leBytes 2 i.k ++ leBytes 1 st ++ leBytes 1 (i.dec - 1)
    ++ leBytes 2 (if st == 3 || st == 4 then 0 else i.nin rank) ++ leBytes 2 nrank ++ leBytes 2 0
    ++ leBytes 4 (if st == 1 then i.mask else 0xFFFFFFFF)

def alignTo (n a : Nat) : Nat := ceilDiv n a * a

/-- The record of a step, with OVF when the stride cuts it short. -/
def State.recordBytes (s : State) (n : Nat) (x : TStep) : List Byte × Bool :=
  let job := s.trnJob n
  let stride := s.trnStride n
  let (nrank, rank) := match s.groupOf job with
    | some g => ((s.gcfg g).nrank, (s.gcfg g).rank)
    | none => (0, 0)
  let cts := s.contributors job x.num
  let nfb := min x.fb.length ((stride - 0x60) / 4)
  let siAt := alignTo (0x60 + 4 * nfb) 8
  let nsi := min x.standins.length ((stride - siAt) / 8)
  let ctAt := alignTo (siAt + 8 * nsi) 16
  let nct := min cts.length ((stride - ctAt) / 16)
  let cut := decide (nfb < x.fb.length) || decide (nsi < x.standins.length) || decide (nct < cts.length)
  let ovf := x.verdict == some true
  let flags := b2n ovf + 2 * b2n (nsi != 0) + 4 * b2n (cts.any fun i => i.ended == some 1)
    + 8 * b2n (x.fb.any fun e => e.2 == 2) + 16 * b2n x.halted + 32 * b2n cut + 64 * b2n x.dlogOvf
    + 128 * b2n x.diverged + 256 * b2n x.missing
  let head := leBytes 4 0x52505453 ++ leBytes 2 1 ++ leBytes 2 job ++ leBytes 8 x.num ++ leBytes 8 x.seed
    ++ leBytes 8 (x.firstStitch.getD 0) ++ leBytes 8 x.verdictStitch ++ leBytes 1 x.exp ++ leBytes 1 x.expNext
    ++ leBytes 2 x.cleanAfter ++ leBytes 1 x.stash ++ leBytes 1 (if ovf then 2 else 1) ++ leBytes 1 x.modes
    ++ leBytes 1 x.added ++ leBytes 4 flags ++ leBytes 4 nfb ++ leBytes 4 nsi ++ leBytes 4 nct ++ leBytes 4 x.discarded
    ++ leBytes 28 0
  let a := head ++ (x.fb.take nfb).flatMap fun e => leBytes 4 (e.1 * 65536 + e.2 * 256)
  let b := padTo siAt 0 a ++ (x.standins.take nsi).flatMap (leBytes 8)
  let c := if cts.isEmpty then b else padTo ctAt 0 b ++ (cts.take nct).flatMap fun i => i.element nrank rank
  (c, cut)

/-- The step of a slot that may retire: DECIDED, its successor out of COLLECTING, its updates ended. -/
def State.readyToRetire (s : State) (n : Nat) : Option TStep :=
  ((s.slot n).steps.find? fun x => x.phase != .retired).bind fun x =>
    if x.phase == .decided && (s.updatesOf n x.num).isEmpty
        && ((s.slot n).find (x.num + 1)).any fun y => y.phase != .collecting
    then some x else none

/-- The record is written and the step RETIRED. -/
def retireStep (n : Nat) (x : TStep) (s : State) : State :=
  let job := s.trnJob n
  let (bs, cut) := s.recordBytes n x
  let a := s.recordAt n (s.trnRec n) x.num
  let s := if s.settable a bs.length then note 0x0306 0 s.tsc.now srcFirmware job 0 x.num (hubWrite a bs s)
    else onStep n x.num (fun y => { y with noRecord := true }) (memErr n 2 s)
  let s := if cut then note 0x0307 1 s.tsc.now srcFirmware job 0 x.num s else s
  onStep n x.num (fun y => { y with phase := .retired }) s

/-! ## Register writes that act on slots -/

/-- TRN_CLOSE (R243): whether the write is accepted, and the state after. -/
def closeStep (n v : Nat) (s : State) : Bool × State :=
  if !s.trnOn n then (false, s) else
  match (s.slot n).collecting with
  | some x =>
    let before := (s.slot n).steps.all fun y => y.num + 1 != x.num || y.phase == .decided || y.phase == .retired
    if x.num % 2 ^ 32 == v && before then
      (true, openStep n (x.num + 1) (onStep n x.num (fun y => { y with phase := .closing }) s))
    else (false, s)
  | none => (false, s)

/-- The conditions of R242 and R275 on setting EN of slot n for a job. -/
def State.slotMayEnable (s : State) (n job : Nat) : Bool :=
  ((upTo 16).all fun m => m == n || !(s.trnOn m && s.trnJob m == job))
    && s.inWritable (s.trnFlag n) 1 && s.inWritable (s.trnState n) 1 && s.inWritable (s.trnRec n) 1
    && s.trnRing n != 0 && s.trnStride n != 0 && (!s.trnReplay n || s.inWritable (s.trnRpl n) 1)

/-- EN is set for a job (R248): the first state block, then the first step. -/
def enableSlot (n job : Nat) (s : State) : State :=
  let c := s.reg64 (trnAddr n 0x10)
  let s := setReg (trnAddr n 0x00) (2 ^ 31 + job) s
  let s := onSlot n (fun t => { t with enabledAt := s.tsc.now, steps := [], halt := none, expWrite := none,
                                       pendFlag := none, late := none, overflows := 0, discards := 0 }) s
  let s := if s.tableOk n then s else memErr n 3 s
  writeBlock n c (s.slot n).exp 0 0 true (openStep n c s)

/-- A verdict that waited for a captured page, once it need not wait (R247). -/
def retryVerdict (n : Nat) (s : State) : State :=
  match (s.slot n).late, (s.slot n).steps.find? fun x => x.phase == .voting with
  | some v, some x =>
    let free := onSlot n (fun t => { t with late := none }) s
    match v.settled with
    | none => verdict n x.num v.flag v.missing free
    | some (t, added, narrow) => if s.verdictWaits n x.num then s else settleVerdict n x.num v.flag v.missing t added narrow free
  | _, _ => s

/-- What waited for a captured page goes on: RESULTs, verdicts, and slots to be enabled (R247, R248, R368, R369). -/
def retryHeld (s : State) : State :=
  let s := forEach (upTo 16) (fun g s => forEach ((s.group g).insts.filter fun i => i.ended.isNone)
    (fun i s => advanceAny g i.entry i.k i.step s) s) s
  forEach (upTo 16) (fun n s =>
    let s := retryVerdict n s
    match (s.slot n).enabling with
    | some job =>
      if s.enableWaits n (s.reg64 (trnAddr n 0x10)) then s
      else
        let s := onSlot n (fun t => { t with enabling := none }) s
        if s.slotMayEnable n job then enableSlot n job s else s
    | none => s) s

/-! ## Checkpoint abort (R370) -/

def ckpBusy (p : CkpPhase) : Bool := p == .armed || p == .streaming || p == .waiting

/-- The checkpoint ends ABORTED with a cause; waiting writes may proceed and the stream stops. -/
def ckpAbort (cause src : Nat) (s : State) : State :=
  if !ckpBusy s.ckp.phase then s
  else note 0x0611 1 s.tsc.now src (s.trnJob (bits (s.reg 0xB0100) 0 4)) 0 cause
    (retryHeld (onCkp (fun c => { c with phase := .aborted, cause := cause, entries := [], pages := [], copied := [], stream := [] }) s))

/-- EN is cleared (R442): the slot's commands are ordinary ones, bound to no step. -/
def disableSlot (n : Nat) (s : State) : State :=
  let open_ := s.cmdIds fun k => k.live && k.fenced && (k.step.any fun p => p.1 == n)
    && ((k.step.bind fun p => (s.slot n).find p.2).all fun x => x.verdict.isNone)
  let s := forEach open_ discard s
  let s := { s with cmds := s.cmds.map fun k => if k.step.any fun p => p.1 == n
    then { k with fenced := false, fallback := s.degraded k, step := none } else k }
  let s := onSlot n (fun t => { t with steps := [], halt := none, pendFlag := none, late := none, enabling := none }) s
  let s := if s.ckp.phase == .armed && bits (s.reg 0xB0100) 0 4 == n then ckpAbort 4 srcCkp s else s
  setReg (trnAddr n 0x00) (s.trnJob n) s

/-- A write of EXP counts when it differs from what EXP reads (R253); while EN is clear it sets what the first step
takes. -/
def writeExp (n v : Nat) (s : State) : State :=
  if v == (s.slot n).exp then s
  else if s.trnOn n then onSlot n (fun t => { t with expWrite := some v }) s
  else onSlot n (fun t => { t with exp := v }) s

/-! ## Binding (R244) -/

/-- How a descriptor binds at its ingress: refused, discarded at once, or bound. -/
inductive Bind where
  | refused
  | free
  | work (slot step : Nat)
  | update (slot step : Nat) (discarded : Bool)
  deriving DecidableEq, Repr

def State.bindOf (s : State) (d : Desc) : Bind :=
  match s.slotOf d.job with
  | none => if d.verdict then .refused else .free
  | some n =>
    if d.stream == 2 then
      if !d.verdict then .free
      else match (s.slot n).steps.reverse.find? fun x => x.phase != .collecting with
        | some x => .update n x.num (x.verdict == some true)
        | none => .refused
    else match (s.slot n).collecting with
      | some x => .work n x.num
      | none => .free

end Sys2Proof.Machine
end

