-- ==== Sys2Proof/Machine/Admission.lean ====
section
/-! DEFINITION. Admission (R48 to R51, R182, R204, R205, R326, R441): the descriptor, the program image, the checks in
their order, and where an accepted command is placed. -/

namespace Sys2Proof.Machine

/-! ## The descriptor (R204) -/

/-- WAIT0, WAIT1 and SIGNAL: buckle and value, none for 0xFFFF. -/
def Desc.pair (w : Nat) : Option (Nat × Nat) := if bits w 32 16 == 0xFFFF then none else some (bits w 32 16, bits w 0 32)

def Desc.ofBytes (bs : List Byte) : Desc :=
  let n := fun o k => ofLE ((bs.drop o).take k)
  let ctrl := n 0x06 1
  { tag := n 0x00 4, job := n 0x04 2, stream := bits ctrl 6 2, verdict := bit ctrl 5, target := n 0x08 8, cost := n 0x10 4
    clBase := n 0x14 1, clCount := n 0x15 1, program := n 0x18 8, args := n 0x20 8
    wait0 := Desc.pair (n 0x28 8), wait1 := Desc.pair (n 0x30 8), signal := Desc.pair (n 0x38 8)
    bad := bits ctrl 6 2 == 3 || bits ctrl 0 5 != 0 || n 0x07 1 != 0 || n 0x16 2 != 0
      || bits (n 0x28 8) 48 16 != 0 || bits (n 0x30 8) 48 16 != 0 || bits (n 0x38 8) 48 16 != 0 }

def Desc.buckles (d : Desc) : List Nat := [d.wait0, d.wait1, d.signal].filterMap fun o => o.map (·.1)

/-- The defects of R205. -/
def State.descDefect (s : State) (d : Desc) : Bool :=
  d.bad || decide (127 < d.clBase + d.clCount) || (d.buckles.any fun b => !s.ownBuckle d.job b)
    || !s.inTier d.args 1 || !s.inTier d.program 1

/-! ## The program image (R181, R182) -/

def State.imageProd (s : State) (a i : Nat) : Prod :=
  let e := a + 0x20 + 16 * i
  ⟨s.devNum e 4, s.devNum (e + 4) 2, s.devNum (e + 6) 1, s.devNum (e + 7) 1, s.devNum (e + 8) 1⟩

def State.imageProds (s : State) (a : Nat) : List Prod := (upTo (min 16 (s.devNum (a + 0xC) 1))).map (s.imageProd a)

/-- An entry's own fields: K and SPLIT in range, FMT and MODE in R93, reserved bytes zero. FMT_B is a code of R116. -/
def State.prodOk (s : State) (a i : Nat) (p : Prod) : Bool :=
  decide (1 ≤ p.k) && decide (1 ≤ p.split) && decide (p.split ≤ ceilDiv p.k 128) && comboOk p.fmtA p.mode true
    && decide (p.fmtB ≤ 4) && s.devNum (a + 0x20 + 16 * i + 9) 7 == 0

/-- FORMAT_MIX: the formats differ and the widening of R130 does not explain it. -/
def Prod.mixed (p : Prod) : Bool := p.fmtA != p.fmtB && !(p.fmtA == 3 && decide (p.fmtB ≤ 2))

/-- The reason an image is refused for, in the order of R441. -/
def State.imageReason (s : State) (a : Nat) : Option Nat :=
  let len := s.devNum (a + 8) 4
  let n := s.devNum (a + 0xC) 1
  if a % 32 != 0 || !s.usable a 288 || !s.usable a (288 + len) || s.devNum a 4 != 0x50474D4C then some 6
  else if s.devNum (a + 4) 2 != 1 then some 5
  else if len % 8 != 0 || decide (len < 8) || decide (65536 < len) || decide (16 < n) || s.devNum (a + 0xD) 19 != 0
      || !((upTo n).all fun i => s.prodOk a i (s.imageProd a i)) || s.devNum (a + 0x20 + 16 * n) (16 * (16 - n)) != 0 then some 6
  else if (s.imageProds a).any Prod.mixed then some 7
  else none

/-! ## Checks at ingress (R441) -/

/-- The reason a descriptor is refused for before it is placed. -/
def State.ingressReason (s : State) (x : Session) (dup : Bool) (d : Desc) : Option Nat :=
  if s.spr.fatal || (s.pwr.state == .idle && !s.pwr.waking) then some 4
  else if d.tag == 0 || dup || (x.cls == 2 && d.job != x.job) || s.descDefect d || s.bindOf d == .refused then some 6
  else if d.cost == 0 then some 1
  else if s.stitchBudget s.sth.number < d.cost then some 2
  else if !(s.pagesUsed d).all s.pageEn then some 4
  else match s.imageReason d.program with
    | some r => some r
    | none => if s.vacant d then some 6 else none

def Cmd.fresh (d : Desc) (sid port t : Nat) (notify : Bool) : Cmd where
  d := d
  sid := sid
  port := port
  time := t
  source := srcIngress port
  notify := notify
  notified := false
  phase := .held
  code := 0
  errArg := 0
  stitch := 0
  charged := false
  posted := false
  step := none
  fenced := false
  standin := false
  fallback := false
  measured := 0
  endsMade := []
  begun := []
  after := []
  prods := []
  codeLen := 0

/-- Commands in the hold queue. -/
def State.heldCount (s : State) : Nat := (s.cmds.filter fun c => c.phase == .held && c.posted).length

/-- Placing an accepted command (R50). DESIGN CHOICE (log entry 75): the full hold queue refuses only a command that would have
to wait in it; one that fits an open stitch is admitted. -/
def place (id : Nat) (s : State) : State :=
  match s.cmds[id]? with
  | none => s
  | some c =>
    match s.choose id c with
    | some n => admitCmd id n s
    | none => if 4096 ≤ s.heldCount then refuse id 3 s else hold id s

/-- One descriptor of a CMD message. -/
def ingest (x : Session) (port : Nat) (notify : Bool) (bs : List Byte) (s : State) : State :=
  let d := Desc.ofBytes bs
  let id := s.cmds.length
  let dup := s.cmds.any fun c => c.live && c.sid == x.sid && c.d.tag == d.tag
  let reason := s.ingressReason x dup d
  let s := { s with cmds := s.cmds ++ [Cmd.fresh d x.sid port s.tsc.now notify] }
  match reason with
  | some r => refuse id r s
  | none =>
    let s := onCmd id (fun c => { c with
      prods := s.imageProds d.program
      codeLen := s.devNum (d.program + 8) 4
      after := (s.writes.filter fun w => w.host.any fun h => h.1 == x.sid).map (·.id) }) s
    match s.bindOf d with
    | .work n k => place id (onCmd id (fun c => { c with step := some (n, k) }) s)
    | .update n k dead =>
      let s := onCmd id (fun c => { c with step := some (n, k), fenced := true }) s
      if dead then discard id s else place id s
    | _ => place id s

end Sys2Proof.Machine
end

