-- ==== Sys2Proof/Machine/Words.lean ====
section
/-! DEFINITION. Instruction words of the pommel core (R188 to R192): the word of each instruction, and the instruction a
word spells. -/

namespace Sys2Proof

open Sys2Proof.Machine

/-- Opcode in [63:56]. -/
def opWord (op rest : Nat) : Nat := op * 2 ^ 56 + rest

/-- The first three register fields, [55:51], [50:46] and [45:41]. -/
def threeRegs (d a b : Nat) : Nat := d * 2 ^ 51 + a * 2 ^ 46 + b * 2 ^ 41

/-! ## The forms as bits (R188, R190 to R192) -/

def FormR.word (f : FormR) : Nat := threeRegs f.d f.a f.b + f.rsv.toNat
def FormI.word (f : FormI) : Nat := f.d * 2 ^ 51 + f.a * 2 ^ 46 + f.imm.toNat
def FormJ.word (f : FormJ) : Nat := f.rsv.toNat * 2 ^ 51 + f.a * 2 ^ 46 + f.b * 2 ^ 41 + f.off.toNat
def FormMxa.word (f : FormMxa) : Nat :=
  threeRegs f.w f.a f.b + f.spill * 2 ^ 36 + f.mask * 2 ^ 31 + f.prod * 2 ^ 27 + f.rsv.toNat
def FormLch.word (f : FormLch) : Nat :=
  threeRegs f.w f.a f.b + f.va * 2 ^ 36 + f.vb * 2 ^ 31 + f.k0 * 2 ^ 26 + f.k1 * 2 ^ 21 + f.sd * 2 ^ 16 + f.x * 2 ^ 11
    + f.rsv.toNat
def FormCmb.word (f : FormCmb) : Nat := threeRegs f.w f.a f.b + f.spill * 2 ^ 36 + f.mask * 2 ^ 31 + f.rsv.toNat

/-- A five-bit field as a register number. -/
def regField (w lo : Nat) : Fin 32 := ⟨bits w lo 5, Nat.mod_lt _ (by decide)⟩

def FormR.ofWord (w : Nat) : FormR := ⟨regField w 51, regField w 46, regField w 41, BitVec.ofNat 41 (bits w 0 41)⟩
def FormI.ofWord (w : Nat) : FormI := ⟨regField w 51, regField w 46, BitVec.ofNat 46 (bits w 0 46)⟩
def FormJ.ofWord (w : Nat) : FormJ :=
  ⟨BitVec.ofNat 5 (bits w 51 5), regField w 46, regField w 41, BitVec.ofNat 41 (bits w 0 41)⟩
def FormMxa.ofWord (w : Nat) : FormMxa :=
  ⟨regField w 51, regField w 46, regField w 41, regField w 36, regField w 31, ⟨bits w 27 4, Nat.mod_lt _ (by decide)⟩,
    BitVec.ofNat 27 (bits w 0 27)⟩
def FormLch.ofWord (w : Nat) : FormLch :=
  ⟨regField w 51, regField w 46, regField w 41, regField w 36, regField w 31, regField w 26, regField w 21, regField w 16,
    regField w 11, BitVec.ofNat 11 (bits w 0 11)⟩
def FormCmb.ofWord (w : Nat) : FormCmb :=
  ⟨regField w 51, regField w 46, regField w 41, regField w 36, regField w 31, BitVec.ofNat 31 (bits w 0 31)⟩

/-! ## The opcode table (R189) -/

/-- The instruction a word spells at a place; none for a reserved opcode. -/
def instrOfWord (p : At) (w : Nat) : Option Instr :=
  let r := FormR.ofWord w
  let i := FormI.ofWord w
  let j := FormJ.ofWord w
  match bits w 56 8 with
  | 0x01 => some (.li p i)
  | 0x02 => some (.add p r)
  | 0x03 => some (.addi p i)
  | 0x04 => some (.sub p r)
  | 0x05 => some (.mul p r)
  | 0x06 => some (.and p r)
  | 0x07 => some (.or p r)
  | 0x08 => some (.xor p r)
  | 0x09 => some (.shl p r)
  | 0x0A => some (.shr p r)
  | 0x0B => some (.sar p r)
  | 0x0C => some (.ldt p i)
  | 0x0D => some (.stt p i)
  | 0x0E => some (.ldd p i)
  | 0x0F => some (.std p i)
  | 0x10 => some (.beq p j)
  | 0x11 => some (.bne p j)
  | 0x12 => some (.blt p j)
  | 0x13 => some (.bltu p j)
  | 0x14 => some (.jmp p j)
  | 0x20 => some (.setvl p r)
  | 0x30 => some (.mxa p (FormMxa.ofWord w))
  | 0x31 => some (.lch p (FormLch.ofWord w))
  | 0x32 => some (.cmb p (FormCmb.ofWord w))
  | 0x38 => some (.movin p r)
  | 0x39 => some (.movout p r)
  | 0x3A => some (.pfset p i)
  | 0x3B => some (.pfwait p i)
  | 0x3C => some (.pfrel p i)
  | 0x40 => some (.bwait p r)
  | 0x41 => some (.bsig p r)
  | 0x48 => some (.fence p r)
  | 0x4F => some (.endCmd p r)
  | _ => none

/-- The place and the word of an instruction; none for a command that is no instruction. -/
def wordOfInstr : Instr → Option (At × Nat)
  | .li p f => some (p, opWord 0x01 f.word)
  | .add p f => some (p, opWord 0x02 f.word)
  | .addi p f => some (p, opWord 0x03 f.word)
  | .sub p f => some (p, opWord 0x04 f.word)
  | .mul p f => some (p, opWord 0x05 f.word)
  | .and p f => some (p, opWord 0x06 f.word)
  | .or p f => some (p, opWord 0x07 f.word)
  | .xor p f => some (p, opWord 0x08 f.word)
  | .shl p f => some (p, opWord 0x09 f.word)
  | .shr p f => some (p, opWord 0x0A f.word)
  | .sar p f => some (p, opWord 0x0B f.word)
  | .ldt p f => some (p, opWord 0x0C f.word)
  | .stt p f => some (p, opWord 0x0D f.word)
  | .ldd p f => some (p, opWord 0x0E f.word)
  | .std p f => some (p, opWord 0x0F f.word)
  | .beq p f => some (p, opWord 0x10 f.word)
  | .bne p f => some (p, opWord 0x11 f.word)
  | .blt p f => some (p, opWord 0x12 f.word)
  | .bltu p f => some (p, opWord 0x13 f.word)
  | .jmp p f => some (p, opWord 0x14 f.word)
  | .setvl p f => some (p, opWord 0x20 f.word)
  | .mxa p f => some (p, opWord 0x30 f.word)
  | .lch p f => some (p, opWord 0x31 f.word)
  | .cmb p f => some (p, opWord 0x32 f.word)
  | .movin p f => some (p, opWord 0x38 f.word)
  | .movout p f => some (p, opWord 0x39 f.word)
  | .pfset p f => some (p, opWord 0x3A f.word)
  | .pfwait p f => some (p, opWord 0x3B f.word)
  | .pfrel p f => some (p, opWord 0x3C f.word)
  | .bwait p f => some (p, opWord 0x40 f.word)
  | .bsig p f => some (p, opWord 0x41 f.word)
  | .fence p f => some (p, opWord 0x48 f.word)
  | .endCmd p f => some (p, opWord 0x4F f.word)
  | _ => none

end Sys2Proof
end

