-- ==== Sys2Proof/Machine/Pommel.lean ====
section
/-! DEFINITION. The pommel core (R183 to R196, R200 to R206): issue from a context, the scalar instructions, loads, stores,
branches, and issue to the array and the chain. -/

namespace Sys2Proof.Machine

/-! ## Contexts (R183, R185) -/

/-- Tile n of a prefetcher has been delivered (R199). -/
def Prefetcher.whole (p : Prefetcher) (n : Nat) : Bool := p.active && decide (n < p.delivered)

def Cluster.pf (c : Cluster) (n : Nat) : Prefetcher := c.pfs.getD n Prefetcher.reset
def Cluster.onPf (n : Nat) (f : Prefetcher → Prefetcher) (c : Cluster) : Cluster := { c with pfs := setAt c.pfs n (f (c.pf n)) }

/-- Nothing holds the context: a FENCE is over once its operations have taken effect, a PFWAIT once its tile is whole. -/
def State.stallOver (s : State) (x k : Nat) : Bool :=
  match ((s.cl x).cx k).stall with
  | .none => true
  | .fence => !s.inFlight x k (s.cl x).opNext
  | .prefetch pf n => ((s.cl x).pf pf).whole n
  | _ => false

/-- The context runs a command and may issue. -/
def State.canIssue (s : State) (x k : Nat) : Bool := ((s.cl x).cx k).cmd.isSome && s.stallOver x k && (s.cl x).logical.isSome

/-- The order of admission: by stitch, then by arrival (R48). -/
def State.admitKey (s : State) (x k : Nat) : Nat × Nat :=
  match ((s.cl x).cx k).cmd with
  | some id => ((s.cmds[id]?).elim 0 fun c => c.stitch, id)
  | none => (0, 0)

/-- The next instruction goes to a unit that still holds operations of its queue: only then may the queue be full (R185). -/
def State.queueHeld (s : State) (x k : Nat) : Bool :=
  match ((s.cl x).cx k).code[((s.cl x).cx k).pc]? with
  | some w => match bits w.toNat 56 8 with
    | 0x30 | 0x32 => !(s.cl x).arrQ.isEmpty
    | 0x31 => !(s.cl x).chainQ.isEmpty
    | 0x0F | 0x39 => s.writes.any fun v => v.cluster.any fun p => p.1 == x
    | _ => false
  | none => false

/-- The running context keeps the core until it stalls or ends its command (R185). -/
def State.holder (s : State) (x : Nat) : Option Nat := (s.cl x).last.filter fun l => (s.cl x).holds && s.canIssue x l

/-- Among the contexts that are ready, the one whose command was admitted first. -/
def State.firstReady (s : State) (x : Nat) (but : Option Nat) : Option Nat :=
  (upTo 3).foldl (fun best k =>
    if !s.canIssue x k || but == some k then best
    else match best with
      | some j => if before (s.admitKey x k) (s.admitKey x j) then some k else best
      | none => some k) none

/-- The core issues from context k next (R185): the one that runs, or, when it has stalled or its unit's queue may be full,
the ready one admitted first. -/
def State.turn (s : State) (x k : Nat) : Bool :=
  s.canIssue x k && match s.holder x with
    | some l => l == k || (s.queueHeld x l && s.firstReady x (some l) == some k)
    | none => s.firstReady x none == some k

/-- An instruction is issued: counted, and a change of the issuing context counted (R185, R207). -/
def countIssue (x k : Nat) (s : State) : State :=
  onCl x (fun c => { c with
    issued := c.issued + 1
    switches := c.switches + b2n (c.last.any fun l => l != k)
    last := some k
    holds := true }) s

/-- A context that an instruction has left stalled, or at its END, gives up the core (R185). -/
def releaseCore (x k : Nat) (s : State) : State :=
  if s.canIssue x k then s else onCl x (fun c => { c with holds := false }) s

/-- A program counter in instructions; it wraps with the 64-bit byte address. -/
def pcWrap (i : Int) : Nat := (i % 2 ^ 61).toNat

/-- The instruction issues and the counter moves by `off` instructions. -/
def advBy (x k : Nat) (off : Int) (s : State) : State :=
  onCtx x k (fun c => { c with pc := pcWrap (c.pc + off), stall := .none }) (countIssue x k s)

def adv (x k : Nat) (s : State) : State := advBy x k 1 s

/-- The instruction meets an error of R193. -/
def failAt (x k code pc : Nat) (s : State) : State := programError x k code pc (countIssue x k s)

def State.sreg (s : State) (x k : Nat) (r : Fin 32) : Word64 := ((s.cl x).cx k).s.getD r 0

def setS (x k : Nat) (r : Fin 32) (v : Word64) (s : State) : State :=
  onCtx x k (fun c => { c with s := setAt c.s r v }) s

/-- Issue of the word `word` from a context (R185, R188, R193): nothing happens while it is not the context's turn, while it
stands at another word, or while an earlier operation in flight touches what the instruction touches (R186). Otherwise the
instruction acts, given its command and its byte offset. -/
def issue (p : At) (word : Nat) (bad : Bool) (touch : State → Touch) (act : (id pc : Nat) → State → State) (s : State) : State :=
  let c := (s.cl p.x).cx p.c
  match c.cmd with
  | none => s
  | some id =>
    if !s.turn p.x p.c then s
    else match c.code[c.pc]? with
      | none => programError p.x p.c 2 (8 * c.pc) (tick p.t s)
      | some w =>
        if (instrOfWord p w.toNat).isNone then programError p.x p.c 1 (8 * c.pc) (tick p.t s)
        else if w.toNat != word then s
        else if bad then programError p.x p.c 1 (8 * c.pc) (tick p.t s)
        else if s.hazard p.x p.c (touch s) then s
        else act id (8 * c.pc) (tick p.t s)

def regs3 (d a b : Fin 32) : State → Touch := fun _ => { sregs := [d, a, b] }

/-! ## Arithmetic (R189) -/

/-- A form R instruction whose D takes a function of A and B. -/
def alu (op : Nat) (g : Word64 → Word64 → Word64) (p : At) (f : FormR) (s : State) : State :=
  issue p (opWord op f.word) (f.rsv != 0) (regs3 f.d f.a f.b)
    (fun _ _ s => setS p.x p.c f.d (g (s.sreg p.x p.c f.a) (s.sreg p.x p.c f.b)) (adv p.x p.c s)) s

def execLi (p : At) (f : FormI) (s : State) : Host.Outcome State Fault Refusal :=
  done (issue p (opWord 0x01 f.word) false (regs3 f.d f.d f.d)
    (fun _ _ s => setS p.x p.c f.d (f.imm.signExtend 64) (adv p.x p.c s)) s)

def execAdd (p : At) (f : FormR) (s : State) : Host.Outcome State Fault Refusal := done (alu 0x02 (· + ·) p f s)

def execAddi (p : At) (f : FormI) (s : State) : Host.Outcome State Fault Refusal :=
  done (issue p (opWord 0x03 f.word) false (regs3 f.d f.a f.a)
    (fun _ _ s => setS p.x p.c f.d (s.sreg p.x p.c f.a + f.imm.signExtend 64) (adv p.x p.c s)) s)

def execSub (p : At) (f : FormR) (s : State) : Host.Outcome State Fault Refusal := done (alu 0x04 (· - ·) p f s)
def execMul (p : At) (f : FormR) (s : State) : Host.Outcome State Fault Refusal := done (alu 0x05 (· * ·) p f s)
def execAnd (p : At) (f : FormR) (s : State) : Host.Outcome State Fault Refusal := done (alu 0x06 (· &&& ·) p f s)
def execOr (p : At) (f : FormR) (s : State) : Host.Outcome State Fault Refusal := done (alu 0x07 (· ||| ·) p f s)
def execXor (p : At) (f : FormR) (s : State) : Host.Outcome State Fault Refusal := done (alu 0x08 (· ^^^ ·) p f s)

/-- Shift counts are B[5:0]. -/
def execShl (p : At) (f : FormR) (s : State) : Host.Outcome State Fault Refusal :=
  done (alu 0x09 (fun a b => a <<< (b.toNat % 64)) p f s)
def execShr (p : At) (f : FormR) (s : State) : Host.Outcome State Fault Refusal :=
  done (alu 0x0A (fun a b => a >>> (b.toNat % 64)) p f s)
def execSar (p : At) (f : FormR) (s : State) : Host.Outcome State Fault Refusal :=
  done (alu 0x0B (fun a b => a.sshiftRight (b.toNat % 64)) p f s)

/-- SETVL; D and B are reserved (R189). -/
def execSetvl (p : At) (f : FormR) (s : State) : Host.Outcome State Fault Refusal :=
  done (issue p (opWord 0x20 f.word) (f.rsv != 0 || f.d.val != 0 || f.b.val != 0) (regs3 f.a f.a f.a)
    (fun _ _ s =>
      let v := min (s.sreg p.x p.c f.a).toNat 0xFFFF
      onCl p.x (fun c => { c with vlSet := v }) (onCtx p.x p.c (fun c => { c with vl := v }) (adv p.x p.c s))) s)

/-! ## Branches (R189) -/

def branch (op : Nat) (bad : Bool) (taken : Word64 → Word64 → Bool) (p : At) (f : FormJ) (s : State) : State :=
  issue p (opWord op f.word) (f.rsv != 0 || bad) (regs3 f.a f.b f.b)
    (fun _ _ s => advBy p.x p.c (if taken (s.sreg p.x p.c f.a) (s.sreg p.x p.c f.b) then f.off.toInt else 1) s) s

def execBeq (p : At) (f : FormJ) (s : State) : Host.Outcome State Fault Refusal := done (branch 0x10 false (· == ·) p f s)
def execBne (p : At) (f : FormJ) (s : State) : Host.Outcome State Fault Refusal := done (branch 0x11 false (· != ·) p f s)
def execBlt (p : At) (f : FormJ) (s : State) : Host.Outcome State Fault Refusal := done (branch 0x12 false BitVec.slt p f s)
def execBltu (p : At) (f : FormJ) (s : State) : Host.Outcome State Fault Refusal := done (branch 0x13 false BitVec.ult p f s)
def execJmp (p : At) (f : FormJ) (s : State) : Host.Outcome State Fault Refusal :=
  done (branch 0x14 (f.a.val != 0 || f.b.val != 0) (fun _ _ => true) p f s)

/-! ## Loads, stores and moves (R189, R193, R210, R226, R355) -/

/-- A + IMM. -/
def State.eaI (s : State) (p : At) (f : FormI) : Word64 := s.sreg p.x p.c f.a + f.imm.signExtend 64

/-- A scalar tile-store access of 8 bytes: a multiple of 8, within scratch. -/
def State.scratchOk (s : State) (x a n align : Nat) : Bool := a % align == 0 && decide (a + n ≤ (s.cl x).scratch)

/-- A read of device memory by the command of a context: the bytes to `k`, an error, or a wait for a page (R193, R226). -/
def readDev (p : At) (id pc a n : Nat) (k : List Byte → State → State) (s0 s : State) : State :=
  let job := (s.cmds[id]?).elim 0 fun c => c.d.job
  match s.serve job a n with
  | .noTier | .poison => failAt p.x p.c 3 pc s
  | .wait page => fetchPage page s0
  | .bytes bs si z t =>
    let s := dropOnce a n (usePages a n { s with convZeroed := sat32 (s.convZeroed + z), convSat := sat32 (s.convSat + t) })
    k bs (onCmd id (fun c => { c with standin := c.standin || si }) s)

def execLdt (p : At) (f : FormI) (s : State) : Host.Outcome State Fault Refusal :=
  done (issue p (opWord 0x0C f.word) false
    (fun s => { sregs := [f.d, f.a], tsR := [(tsAddr (s.eaI p f).toNat, 8)] })
    (fun _ pc s =>
      let a := tsAddr (s.eaI p f).toNat
      if s.scratchOk p.x a 8 8 then
        setS p.x p.c f.d (BitVec.ofNat 64 ((s.cl p.x).tsNum a 8)) (adv p.x p.c s)
      else failAt p.x p.c 3 pc s) s)

def execStt (p : At) (f : FormI) (s : State) : Host.Outcome State Fault Refusal :=
  done (issue p (opWord 0x0D f.word) false
    (fun s => { sregs := [f.d, f.a], tsW := [(tsAddr (s.eaI p f).toNat, 8)] })
    (fun _ pc s =>
      let a := tsAddr (s.eaI p f).toNat
      if s.scratchOk p.x a 8 8 then
        onCl p.x (Cluster.putTs a (leBytes 8 (s.sreg p.x p.c f.d).toNat)) (adv p.x p.c s)
      else failAt p.x p.c 3 pc s) s)

def execLdd (p : At) (f : FormI) (s : State) : Host.Outcome State Fault Refusal :=
  done (issue p (opWord 0x0E f.word) false
    (fun s => { sregs := [f.d, f.a], devR := [((s.eaI p f).toNat, 8)] })
    (fun id pc s' => readDev p id pc (s'.eaI p f).toNat 8
      (fun bs s => setS p.x p.c f.d (BitVec.ofNat 64 (ofLE bs)) (adv p.x p.c s)) s s') s)

/-- Take the next issue number of a cluster. -/
def nextOp (x : Nat) (s : State) : State := onCl x (fun c => { c with opNext := c.opNext + 1 }) s

/-- A store or move issues its write, which is on its way until it reaches its tier (R25, R202). -/
def writeDev (p : At) (id a : Nat) (bs : List Byte) (s : State) : State :=
  if bs.isEmpty then s
  else nextOp p.x (writePages a bs.length (issueWrite a bs (some (p.x, p.c, (s.cl p.x).opNext)) (some id) none s))

def execStd (p : At) (f : FormI) (s : State) : Host.Outcome State Fault Refusal :=
  done (issue p (opWord 0x0F f.word) false
    (fun s => { sregs := [f.d, f.a], devW := [((s.eaI p f).toNat, 8)] })
    (fun id pc s =>
      let a := (s.eaI p f).toNat
      if s.writable a 8 then writeDev p id a (leBytes 8 (s.sreg p.x p.c f.d).toNat) (adv p.x p.c s)
      else failAt p.x p.c 3 pc s) s)

/-- Length and addresses of a move: multiples of 32, at most 16 MiB, within scratch (R189, R193). -/
def State.moveOk (s : State) (x ts dev n : Nat) : Bool :=
  n % 32 == 0 && decide (n ≤ tsSize) && dev % 32 == 0 && s.scratchOk x ts n 32

def execMovin (p : At) (f : FormR) (s : State) : Host.Outcome State Fault Refusal :=
  let ts := fun (s : State) => tsAddr (s.sreg p.x p.c f.d).toNat
  let dev := fun (s : State) => (s.sreg p.x p.c f.a).toNat
  let len := fun (s : State) => (s.sreg p.x p.c f.b).toNat
  done (issue p (opWord 0x38 f.word) (f.rsv != 0)
    (fun s => { sregs := [f.d, f.a, f.b], tsW := [(ts s, len s)], devR := [(dev s, len s)] })
    (fun id pc s' =>
      if s'.moveOk p.x (ts s') (dev s') (len s') then
        readDev p id pc (dev s') (len s') (fun bs s => onCl p.x (Cluster.putTs (ts s') bs) (adv p.x p.c s)) s s'
      else failAt p.x p.c 3 pc s') s)

def execMovout (p : At) (f : FormR) (s : State) : Host.Outcome State Fault Refusal :=
  let ts := fun (s : State) => tsAddr (s.sreg p.x p.c f.d).toNat
  let dev := fun (s : State) => (s.sreg p.x p.c f.a).toNat
  let len := fun (s : State) => (s.sreg p.x p.c f.b).toNat
  done (issue p (opWord 0x39 f.word) (f.rsv != 0)
    (fun s => { sregs := [f.d, f.a, f.b], tsR := [(ts s, len s)], devW := [(dev s, len s)] })
    (fun id pc s =>
      if s.moveOk p.x (ts s) (dev s) (len s) && s.writable (dev s) (len s) then
        writeDev p id (dev s) ((s.cl p.x).tsBytes (ts s) (len s)) (adv p.x p.c s)
      else failAt p.x p.c 3 pc s) s)

/-! ## Issue to the array and the chain (R190 to R193) -/

def State.cmdProds (s : State) (id : Nat) : List Prod := (s.cmds[id]?).elim [] (·.prods)

/-- ARRAY_ISSUE with its code of R117. -/
def arrayIssue (p : At) (pc code : Nat) (s : State) : State :=
  failAt p.x p.c 4 pc (onCl p.x (fun c => { c with mxaErr := c.mxaErr.add code p.c pc }) s)

def queueArr (p : At) (o : ArrOp) (s : State) : State :=
  nextOp p.x (onCl p.x (fun c => { c with arrQ := c.arrQ ++ [o] }) (adv p.x p.c s))

def execMxa (p : At) (f : FormMxa) (s : State) : Host.Outcome State Fault Refusal :=
  let r := fun (s : State) (i : Fin 32) => (s.sreg p.x p.c i).toNat
  done (issue p (opWord 0x30 f.word) (f.rsv != 0)
    (fun _ => { sregs := [f.w, f.a, f.b, f.spill, f.mask] })
    (fun id pc s =>
      let c := s.cl p.x
      let o : ArrOp := ⟨c.opNext, p.c, id, pc, false, r s f.w, r s f.a, r s f.b, r s f.spill, r s f.mask⟩
      match (s.cmdProds id)[f.prod.val]? with
      | none => failAt p.x p.c 6 pc s
      | some e =>
        let code := o.issueCode c.heldAfter
        if code != 0 then arrayIssue p pc code s
        else if !(ArrWord.ofWord o.word).agrees e then failAt p.x p.c 6 pc s
        else queueArr p o s) s)

/-- CMB (R192); B and [30:0] are reserved. -/
def execCmb (p : At) (f : FormCmb) (s : State) : Host.Outcome State Fault Refusal :=
  let r := fun (s : State) (i : Fin 32) => (s.sreg p.x p.c i).toNat
  done (issue p (opWord 0x32 f.word) (f.rsv != 0 || f.b.val != 0)
    (fun _ => { sregs := [f.w, f.a, f.spill, f.mask] })
    (fun id pc s =>
      let c := s.cl p.x
      let o : ArrOp := ⟨c.opNext, p.c, id, pc, true, r s f.w, r s f.a, 0, r s f.spill, r s f.mask⟩
      let code := o.issueCode c.heldAfter
      if code != 0 then arrayIssue p pc code s else queueArr p o s) s)

/-- LCH (R149, R151, R191): the chain samples VL, the scalars and the addresses at issue. -/
def execLch (p : At) (f : FormLch) (s : State) : Host.Outcome State Fault Refusal :=
  done (issue p (opWord 0x31 f.word) (f.rsv != 0)
    (fun _ => { sregs := [f.w, f.a, f.b, f.k0, f.k1, f.x] })
    (fun id pc s =>
      let c := s.cl p.x
      let w := (s.sreg p.x p.c f.w).toNat
      let o : ChainOp := ⟨c.opNext, p.c, id, pc, w, min (c.cx p.c).vl (Ccw.ofWord w).cap, s.sreg p.x p.c f.a,
        s.sreg p.x p.c f.b, f.va, f.vb, s.sreg p.x p.c f.k0, s.sreg p.x p.c f.k1, f.sd, s.sreg p.x p.c f.x⟩
      if o.issueCode != 0 then
        failAt p.x p.c 5 pc (onCl p.x (fun c => { c with lchErr := c.lchErr.add o.issueCode p.c pc }) s)
      else nextOp p.x (onCl p.x (fun c => { c with chainQ := c.chainQ ++ [o] }) (adv p.x p.c s))) s)

/-! ## Buckles, FENCE and END (R189, R194, R200 to R203) -/

/-- BUCKLE of R193: a number above 0x0FFF, or a buckle of another job. -/
def State.buckleOk (s : State) (id b : Nat) : Bool := s.ownBuckle ((s.cmds[id]?).elim 0 fun c => c.d.job) b

def execBwait (p : At) (f : FormR) (s : State) : Host.Outcome State Fault Refusal :=
  done (issue p (opWord 0x40 f.word) (f.rsv != 0) (regs3 f.a f.b f.b)
    (fun id pc s =>
      let b := (s.sreg p.x p.c f.a).toNat
      let t := (s.sreg p.x p.c f.b).toNat % 2 ^ 32
      if !s.buckleOk id b then failAt p.x p.c 7 pc s
      else
        let met := s.waitMet b t
        releaseCore p.x p.c
          (onCtx p.x p.c (fun c => { c with stall := if met then .none else .buckle b t }) (adv p.x p.c s))) s)

/-- An effect held by the release gate, after every earlier operation of the context (R202, R344). -/
def gateIn (p : At) (id : Nat) (e : Effect) (s : State) : State :=
  onCl p.x (fun c => { c with gate := c.gate ++ [⟨s.tsc.now, p.c, id, c.opNext, e⟩] }) s

def execBsig (p : At) (f : FormR) (s : State) : Host.Outcome State Fault Refusal :=
  done (issue p (opWord 0x41 f.word) (f.rsv != 0) (regs3 f.a f.b f.b)
    (fun id pc s =>
      let b := (s.sreg p.x p.c f.a).toNat
      let inc := (s.sreg p.x p.c f.b).toNat % 2 ^ 32
      if !s.buckleOk id b then failAt p.x p.c 7 pc s
      else gateIn p id (.signal b inc) (adv p.x p.c s)) s)

def execFence (p : At) (f : FormR) (s : State) : Host.Outcome State Fault Refusal :=
  done (issue p (opWord 0x48 f.word) (f.rsv != 0) (fun _ => {})
    (fun _ _ s => releaseCore p.x p.c (onCtx p.x p.c (fun c => { c with stall := .fence }) (adv p.x p.c s))) s)

def execEndCmd (p : At) (f : FormR) (s : State) : Host.Outcome State Fault Refusal :=
  done (issue p (opWord 0x4F f.word) (f.rsv != 0) (fun _ => {})
    (fun id _ s => releaseCore p.x p.c
      (onCtx p.x p.c (fun c => { c with stall := .done }) (gateIn p id .endCmd (adv p.x p.c s)))) s)

/-- BUCKLE_WAIT_SATISFIED (R185, R201, R206): the wait a context stands at is satisfied; after WAIT0 comes WAIT1. -/
def execBuckleWaitSatisfied (p : At) (s : State) : Host.Outcome State Fault Refusal :=
  done <|
    let c := (s.cl p.x).cx p.c
    let stand := fun (st : Stall) => onCtx p.x p.c (fun c => { c with stall := st }) (tick p.t s)
    match c.cmd.bind fun id => s.cmds[id]? with
    | none => s
    | some k =>
      match c.stall with
      | .wait0 => if k.d.wait0.all fun w => s.waitMet w.1 w.2 then
          stand (if k.d.wait1.all fun w => s.waitMet w.1 w.2 then .none else .wait1)
        else s
      | .wait1 => if k.d.wait1.all fun w => s.waitMet w.1 w.2 then stand .none else s
      | .buckle b t => if s.waitMet b t then stand .none else s
      | _ => s

end Sys2Proof.Machine
end

