-- ==== Sys2Proof/Machine/Commands.lean ====
section
/-! DEFINITION. Commands at run time: CMD_BEGIN (R184, R206), the release gate (R202, R344, R348), writes that reach their
tier (R25, R202, R329, R332), completion (R25, R206) and CMD_LATE (R53). -/

namespace Sys2Proof.Machine

/-! ## CMD_BEGIN (R184, R185, R206, R347) -/

/-- The next command of context k on cluster x, which serves logical number l: a command to re-execute, or the first
dispatched command of the context's stream that has not begun here and that no earlier command of its stream precedes. -/
def State.nextCmd (s : State) (x k l : Nat) : Option Nat :=
  match (s.cl x).replayQ.find? fun r => r.2 == k with
  | some r => some r.1
  | none =>
    match s.cmdIds fun c => c.live && c.posted && c.d.stream == k && c.d.uses l && !c.begun.contains l
        && (c.phase == .dispatched || (c.phase == .admitted && c.stitch == s.sth.number)) with
    | [] => none
    | ids =>
      ids.find? fun id => match s.cmds[id]? with
        | some c => c.phase == .dispatched && !(s.earlierOfStream id c fun e =>
            e.phase == .admitted && e.stitch == s.sth.number && e.d.uses l)
        | none => false

/-- The registers of R184. -/
def startRegs (c : Cmd) (l : Nat) : List Word64 :=
  ([l - c.d.clBase, c.d.args, c.d.tag, c.stitch, c.d.clCount + 1, l].map (BitVec.ofNat 64)) ++ List.replicate 26 0

/-- The first wait of the descriptor that is not satisfied (R206). -/
def State.firstStall (s : State) (d : Desc) : Stall :=
  if !(d.wait0.all fun w => s.waitMet w.1 w.2) then .wait0
  else if !(d.wait1.all fun w => s.waitMet w.1 w.2) then .wait1
  else .none

/-- A command has begun on logical cluster l, at cluster x in context k. -/
def markBegun (id x k l : Nat) (s : State) : State :=
  onCmd id (fun c => if c.begun.contains l then c else { c with begun := c.begun ++ [l] })
    (onCl x (fun c => { c with
      replayQ := c.replayQ.filter fun r => r != (id, k)
      begun := if c.begun.any fun b => b.cmd == id then c.begun else c.begun ++ [⟨id, k, 0, false⟩]
      holds := c.holds && c.last != some k
      vlSet := 0 }) s)

def execCmdBegin (p : At) (s : State) : Host.Outcome State Fault Refusal :=
  done <|
    match (s.cl p.x).logical, ((s.cl p.x).cx p.c).cmd with
    | some l, none =>
      if (s.cl p.x).stopped || s.pwr.state != .on then s else
      match s.nextCmd p.x p.c l with
      | none => s
      | some id =>
        match s.cmds[id]? with
        | none => s
        | some c =>
          let now := markBegun id p.x p.c l (tick p.t s)
          match s.serve c.d.job (c.d.program + 288) c.codeLen with
          | .noTier | .poison => programErrorOf p.x p.c id 3 0 now
          | .wait page => fetchPage page s
          | .bytes bs si z u =>
            let now := { now with convZeroed := sat32 (now.convZeroed + z), convSat := sat32 (now.convSat + u) }
            let now := usePages (c.d.program + 288) c.codeLen now
            let code := (chunks 8 bs.length bs).map fun w => BitVec.ofNat 64 (ofLE w)
            onCtx p.x p.c (fun _ => ⟨some id, 0, 0, startRegs c l, code, s.firstStall c.d⟩)
              (onCmd id (fun c => { c with standin := c.standin || si }) now)
    | _, _ => s

/-! ## The release gate (R202, R344, R348) -/

/-- The first held effect whose context has nothing in flight before it, and the effects left. -/
def State.gatePass (s : State) (x : Nat) : List Gated → Option (Gated × List Gated)
  | [] => none
  | g :: gs =>
    if !s.inFlight x g.ctx g.before then some (g, gs)
    else (s.gatePass x gs).map fun r => (r.1, g :: r.2)

/-- Signals of a command that a replay has still to make with no effect, and none once the count is spent. -/
def Cluster.toSuppress (c : Cluster) (id : Nat) : Nat := ((c.suppress.find? fun p => p.1 == id).map (·.2)).getD 0

/-- A signal of R202, counted for a replay to come, or made with no effect within one (R348). -/
def gateSignal (x : Nat) (g : Gated) (b inc : Nat) (s : State) : State :=
  let c := s.cl x
  if 0 < c.toSuppress g.cmd then
    onCl x (fun c => { c with suppress := updateWhere (fun p => p.1 == g.cmd) (fun p => (p.1, p.2 - 1)) c.suppress })
      (tick g.t s)
  else
    let t := max s.tsc.now (g.t + 2000)
    signal b inc t (srcCluster x) (some g.cmd)
      (onCl x (fun c => { c with begun := updateWhere (fun n => n.cmd == g.cmd) (fun n => { n with signals := n.signals + 1 }) c.begun })
        (tick t s))

/-- An END that passes the gate (R194): counted once for its logical cluster. -/
def gateEnd (x : Nat) (g : Gated) (s : State) : State :=
  match (s.cl x).logical, s.cmds[g.cmd]? with
  | some l, some c =>
    let counted := c.endsMade.contains l
    let s := tick (if counted then g.t else max s.tsc.now (g.t + 2000)) s
    let s := onCmd g.cmd (fun c => if counted then c else { c with endsMade := c.endsMade ++ [l] }) s
    let s := onCl x (fun c => { c with begun := updateWhere (fun n => n.cmd == g.cmd) (fun n => { n with ended := true }) c.begun }) s
    let s := if (s.cl x).replaying g.cmd then
        noteReplay x g.cmd (onCl x (fun c => { c with suppress := c.suppress.filter fun p => p.1 != g.cmd }) s)
      else s
    if c.live then s else onCl x (Cluster.dropCmd g.cmd false) s
  | _, _ => s

def execReleaseGatePass (x : Fin 144) (s : State) : Host.Outcome State Fault Refusal :=
  done <|
    match s.gatePass x (s.cl x).gate with
    | none => s
    | some (g, gs) =>
      let s := onCl x (fun c => { c with gate := gs }) s
      match g.what with
      | .signal b inc => gateSignal x g b inc s
      | .endCmd => gateEnd x g s

/-! ## Writes that reach their tier (R25, R202, R329, R332) -/

/-- Two writes come from the same context, session or the device itself: overlapping ones reach memory in order. -/
def DevWrite.sameOrigin (a b : DevWrite) : Bool :=
  match a.cluster, b.cluster with
  | some p, some q => p.1 == q.1 && p.2.1 == q.2.1
  | none, none => a.host.map (·.1) == b.host.map (·.1)
  | _, _ => false

/-- Commands that waited for host writes under R329 are dispatched. -/
def dispatchWaiting (s : State) : State :=
  forEach (s.cmdIds fun c => c.phase == .admitted && c.stitch == s.sth.number && c.after.isEmpty && !s.sth.gap && !s.sth.firstOfGrid)
    (dispatch s.sth.start) s

/-- The bytes of a write are stored in the pages still mapped; in a LIBRARY page, those of its load only (R210). -/
def landWrite (w : DevWrite) (s : State) : State :=
  if (pagesOf w.addr w.bytes.length).all fun p => (s.page p).kind == .writable || (w.host.isSome && (s.page p).loading)
  then putBytes w.addr w.bytes (writePages w.addr w.bytes.length s) else s

def execWriteReachesTier (t id : Nat) (s : State) : Host.Outcome State Fault Refusal :=
  done <|
    match s.writes.find? fun w => w.id == id with
    | none => s
    | some w =>
      if s.ckpBlocks w.addr w.bytes.length
        || (s.writes.any fun v => decide (v.id < id) && v.sameOrigin w && overlap v.addr v.bytes.length w.addr w.bytes.length)
      then s
      else
        let s := landWrite w (tick t s)
        let s := { s with
          writes := s.writes.filter fun v => v.id != id
          cmds := s.cmds.map fun c => if c.after.contains id then { c with after := c.after.filter fun i => i != id } else c }
        let s := match w.host with
          | some (sid, seq) => sendSession sid (.dataResp w.addr 0 seq []) s
          | none => s
        dispatchWaiting (if w.own then retryHeld s else s)

/-! ## Completion (R25, R206) -/

/-- Every cluster has executed END, every output has reached its tier, and every contribution has been accepted. -/
def State.mayComplete (s : State) (id : Nat) (c : Cmd) : Bool :=
  c.phase == .dispatched && (c.d.logicals.all fun l => c.endsMade.contains l)
    && (s.writes.all fun w => w.cmd != some id) && s.redAccepted id

def execCommandComplete (t id : Nat) (measured : Reg32) (s : State) : Host.Outcome State Fault Refusal :=
  done <|
    match s.cmds[id]? with
    | some c =>
      if s.mayComplete id c then
        let src := s.clusterSource (c.endsMade.getLastD c.d.clBase)
        descSignal id src (endCommand id .completed 0 0 (some measured.toNat) (tick t s))
      else s
    | none => s

/-! ## CMD_LATE (R53, R439) -/

/-- The end of the budget of the stitch in progress. -/
def State.budgetEnd (s : State) : Nat := s.sth.start + budgetNs s.sth.period

/-- A logical cluster is running a command's work: it has begun there, and its END has not been released. -/
def Cmd.runningOn (c : Cmd) (l : Nat) : Bool := c.begun.contains l && c.unfinishedOn l

/-- Some cluster of its set is still running a dispatched command. -/
def Cmd.running (c : Cmd) : Bool := c.phase == .dispatched && c.d.logicals.any c.runningOn

/-- The lowest logical number of the set that is still running its work (R439). -/
def Cmd.lowestRunning (c : Cmd) : Nat := (c.d.logicals.find? c.runningOn).getD c.d.clBase

def execCmdLate (s : State) : Host.Outcome State Fault Refusal :=
  done <|
    if s.clockless || s.sth.lateSent || s.sth.gap then s
    else
      let e := s.budgetEnd
      let now := onSth (fun t => { t with lateSent := true }) (tick e s)
      forEach (s.cmdIds Cmd.running) (fun id s => match s.cmds[id]? with
        | some c =>
          let l := c.lowestRunning
          note 0x0101 1 e (s.clusterSource l) c.d.job c.d.tag l s
        | none => s) now

end Sys2Proof.Machine
end

