-- ==== Sys2Proof/Machine/Ftl.lean ====
section
/-! DEFINITION. The blocks of flash (R233, R234, R237): where LIBRARY pages lie, reads, erasure, relocation and retirement. -/

namespace Sys2Proof.Machine

def FlashBlock.fresh : FlashBlock := ⟨0, 0, 0, false, 0⟩

def State.block (s : State) (b : Nat) : FlashBlock := readAt FlashBlock.fresh s.ftl.blocks b

def onFtl (f : Ftl → Ftl) (s : State) : State := { s with ftl := f s.ftl }

def onBlock (b : Nat) (f : FlashBlock → FlashBlock) (s : State) : State :=
  onFtl (fun l => { l with blocks := writeAt FlashBlock.fresh l.blocks b (f (readAt FlashBlock.fresh l.blocks b)) }) s

/-- Blocks on a channel, and flash pages in a block (R233). -/
def blocksPerChannel : Nat := 131072
def pagesPerBlock : Nat := 1024

/-- Flash pages of one LIBRARY page on each channel (R233). -/
def pagesPerShare : Nat := 8

/-- The channel of a block (log entry 24). -/
def channelOfBlock (b : Nat) : Nat := b / blocksPerChannel

/-- SBG_FTL_DUE (R237). -/
def noteDue (b : Nat) (s : State) : State := note 0x0209 0 s.tsc.now srcSaddle 0 0 b s

/-! ## Erase counts (R234) -/

/-- Highest and lowest erase counts; a block never listed has none. -/
def Ftl.erase (f : Ftl) : Nat × Nat :=
  let es := f.blocks.map fun b => b.2.erases
  (es.foldl max 0, if es.length < 2097152 then 0 else es.foldl min (es.headD 0))

/-- The wear threshold: the erase counts differ by more than 200. -/
def State.wearDue (s : State) : Bool := decide (200 < s.ftl.erase.1 - s.ftl.erase.2)

/-- A block holds data. -/
def FlashBlock.full (k : FlashBlock) : Bool := !k.retired && decide (0 < k.programmed)

/-- The least erase count of a block that holds data. -/
def Ftl.least (f : Ftl) : Nat :=
  let es := (f.blocks.filter fun e => e.2.full).map fun e => e.2.erases
  es.foldl min (es.headD 0)

/-- One of the coldest blocks: of those that hold data, it has the least erase count. -/
def State.coldest (s : State) (b : Nat) : Bool := (s.block b).full && (s.block b).erases == s.ftl.least

/-- The coldest blocks, while the wear threshold is passed. -/
def State.wornBlocks (s : State) : List Nat := if s.wearDue then (s.ftl.blocks.map (·.1)).filter s.coldest else []

/-- A change of the blocks; in host-assisted mode each block that reaches the wear threshold by it is reported (R237). -/
def noteWear (f : State → State) (s : State) : State :=
  let t := f s
  if t.hostFtl then forEach (t.wornBlocks.filter fun b => !s.wornBlocks.contains b) noteDue t else t

def eraseBlock (b : Nat) (s : State) : State := onBlock b (fun k => { k with erases := k.erases + 1, reads := 0, programmed := 0 }) s

/-! ## Reads (R234, R237) -/

/-- A read of a block; in host-assisted mode its 50,000th is reported. -/
def readBlock (b : Nat) (s : State) : State :=
  let s := onBlock b (fun k => { k with reads := k.reads + 1 }) s
  if s.hostFtl && (s.block b).reads == 50000 then noteDue b s else s

/-- The blocks that hold a LIBRARY page. -/
def State.blocksOf (s : State) (g : Nat) : List Nat := ((s.ftl.maps.find? fun e => e.1 == g).map (·.2)).getD []

/-- A LIBRARY page that has no copy is read from flash, one read of each of its blocks (log entry 72). -/
def readFlash (g : Nat) (s : State) : State :=
  if (s.page g).kind == .library && (s.page g).copies.isEmpty then forEach (s.blocksOf g) readBlock s else s

/-! ## Placement (R233, R234) -/

/-- The free blocks of a channel that may be chosen: those used before, and the first that never was. -/
def State.freeBlocks (s : State) (c : Nat) : List Nat :=
  let mine := s.ftl.blocks.filter fun e => channelOfBlock e.1 == c
  ((mine.filter fun e => !e.2.retired && e.2.programmed == 0).map (·.1))
    ++ (((upTo (min (mine.length + 1) blocksPerChannel)).map (· + c * blocksPerChannel)).find? fun b =>
        !(mine.any fun e => e.1 == b)).toList

/-- Of free blocks, that of least, or of most, erase count; the lower number of equals. -/
def State.freeBlock (s : State) (bs : List Nat) (most : Bool) : Option Nat :=
  bs.foldl (fun best b => match best with
    | none => some b
    | some a =>
      let x := (s.block a).erases
      let y := (s.block b).erases
      if (if most then decide (x < y) else decide (y < x)) || (x == y && decide (b < a)) then some b else best) none

/-- The block of a channel that the next share of a LIBRARY page is written into: one that still has room, else the free
block of least erase count. -/
def State.shareBlock (s : State) (c : Nat) : Option Nat :=
  ((s.ftl.blocks.find? fun e => channelOfBlock e.1 == c && !e.2.retired && decide (0 < e.2.programmed)
      && decide (e.2.programmed + pagesPerShare ≤ pagesPerBlock)).map (·.1)).orElse fun _ => s.freeBlock (s.freeBlocks c) false

/-- Flash pages are programmed in a block, whose reads count anew (R234). -/
def program (n : Nat) (k : FlashBlock) : FlashBlock := { k with programmed := k.programmed + n, reads := 0 }

/-- A LIBRARY page is striped over the channels (R233). -/
def placeFlash (g : Nat) (s : State) : State :=
  noteWear (fun s => forEach (upTo 16) (fun c s => match s.shareBlock c with
    | some b => onFtl (fun l => { l with maps := (l.maps.filter fun e => e.1 != g) ++ [(g, ((s.blocksOf g) ++ [b]))] })
        (onBlock b (program pagesPerShare) s)
    | none => s) (onFtl (fun l => { l with maps := l.maps.filter fun e => e.1 != g }) s)) s

/-- LIBRARY pages that lie in a block. -/
def State.pagesIn (s : State) (b : Nat) : List Nat := (s.ftl.maps.filter fun e => e.2.contains b).map (·.1)

/-- A LIBRARY page is erased from flash: its blocks that hold no other page are erased (R215, R238). -/
def freeFlash (g : Nat) (s : State) : State :=
  let bs := s.blocksOf g
  let s := onFtl (fun l => { l with maps := l.maps.filter fun e => e.1 != g }) s
  noteWear (fun s => forEach (bs.filter fun b => (s.pagesIn b).isEmpty && !(s.block b).retired) eraseBlock s) s

/-- The block that what block b holds is moved into, if b holds anything: another free block of its channel, the least worn, or
for static wear levelling the most worn (R234). -/
def State.moveTarget (s : State) (wear : Bool) (b : Nat) : Option Nat :=
  if (s.pagesIn b).isEmpty then none else s.freeBlock ((s.freeBlocks (channelOfBlock b)).filter fun k => k != b) wear

/-- What a block holds is moved. -/
def moveBlock (wear : Bool) (b : Nat) (s : State) : State :=
  let gs := s.pagesIn b
  match s.moveTarget wear b with
  | some d =>
    onFtl (fun l => { l with maps := l.maps.map fun e => (e.1, e.2.map fun k => if k == b then d else k) })
      (onBlock d (program (pagesPerShare * gs.length)) s)
  | none => s

/-- A block is relocated and erased (R234). -/
def relocate (wear : Bool) (b : Nat) (s : State) : State :=
  noteWear (fun s => eraseBlock b (moveBlock wear b s)) (onFtl (fun l => { l with refreshes := sat32 (l.refreshes + 1) }) s)

/-- A block leaves service, what it holds moved (R234, R235). -/
def retireBlock (b : Nat) (s : State) : State :=
  note 0x0207 0 s.tsc.now srcSaddle 0 0 b
    (onFtl (fun l => { l with retired := sat32 (l.retired + 1) })
      (noteWear (fun s => onBlock b (fun k => { k with retired := true, programmed := 0 }) (moveBlock false b s)) s))

/-- A block that the layer relocates on its own is due: for its reads, or for wear (R234); in host-assisted mode only at
100,000 reads (R237). -/
def State.relocationDue (s : State) (b : Nat) : Bool :=
  if s.hostFtl then decide (100000 ≤ (s.block b).reads)
  else decide (50000 ≤ (s.block b).reads) || (s.wearDue && s.coldest b)

end Sys2Proof.Machine
end

