-- ==== Sys2Proof/Machine/PageMap.lean ====
section
/-! DEFINITION. The page map and its commands (R209 to R219, R238, R444): hints and limits, requests that wait for the
boundary, what takes effect there, MOVE and QUERY, arrivals and migrations. -/

namespace Sys2Proof.Machine

/-! ## Hints and tiers (R212, R213) -/

/-- The tier PREFER names. -/
def tierOf (prefer : Nat) : Option Tier :=
  match prefer with
  | 1 => some .t0
  | 2 => some .t1
  | 3 => some .t2
  | _ => none

/-- A hint that breaks R213 for any page. -/
def hintBad (h : Nat) : Bool :=
  bits h 0 7 != 0 || decide (3 < hintPrefer h) || (hintPin h && hintPrefer h == 0) || (hintPin h && hintOnce h)

/-- A hint that a page of its kind may not carry. -/
def Page.hintClash (p : Page) (h : Nat) : Bool :=
  !hintRo h && (p.kind == .library || p.kind == .lent || (p.kind == .writable && !p.lentOut.isEmpty))

/-- A page that holds data of a mapped kind in tiers T0 to T2, as R214 counts it: WRITABLE pages and pinned copies, pages
pinned in T0, pages pinned in T1. -/
def Page.weight (p : Page) : Nat × Nat × Nat :=
  let pin := p.kind != .unmapped && hintPin p.hint
  (b2n (p.kind == .writable || pin), b2n (pin && hintPrefer p.hint == 1), b2n (pin && hintPrefer p.hint == 2))

/-! ## Where pages lie (R209, R213, R219, R362) -/

/-- A page counts against a tier: the home of a WRITABLE page, or a pinned copy. -/
def Page.keeps (t : Tier) (p : Page) : Bool :=
  if p.kind == .writable then p.home == t
  else p.kind != .unmapped && hintPin p.hint && tierOf (hintPrefer p.hint) == some t

/-- Pages that a tier holds in a map: homes of WRITABLE pages, and pinned copies. -/
def tierLoadIn (m : List (Nat × Page)) (t : Tier) : Nat := (m.filter fun e => e.2.keeps t).length

def State.tierLoad (s : State) (t : Tier) : Nat := tierLoadIn s.pages t

/-- A page holds its data or a copy in a tier; a LOST page holds none (R236). -/
def Page.inTierT (t : Tier) (p : Page) : Bool :=
  match p.kind with
  | .writable => p.home == t
  | .unmapped => false
  | _ => !p.loading && !p.lost && p.copies.contains t

/-- Homes and pinned copies that lie on a stack. -/
def stackLoadIn (m : List (Nat × Page)) (k : Nat) : Nat :=
  (m.filter fun e => e.2.keeps .t1 && e.2.inTierT .t1 && e.2.stack == k).length

/-- What pages may be placed in: the stacks that stay, those still in service, the pages of the channels that stay, and the
stamp of the placement. -/
structure Room where
  stays : List Nat
  serves : List Nat
  t2 : Nat
  now : Nat
  deriving DecidableEq, Repr

/-- Pages of a stack (R208). -/
def stackPages : Nat := 65536

/-- Room without the memories that leave, on which no new home is placed (R362). -/
def State.room (s : State) : Room where
  stays := (upTo 8).filter fun h => (s.spr.hbm[h]?).any fun m => m.inserv && !m.leaving
  serves := (upTo 8).filter fun h => (s.spr.hbm[h]?).any fun m => m.inserv
  t2 := ((s.spr.ddr.filter fun d => d.inserv && !d.leaving).map fun d => 512 * d.gib).sum
  now := s.tsc.now

/-- Pages that a tier has room for. -/
def Room.pages (r : Room) : Tier → Nat
  | .t0 => 64
  | .t1 => stackPages * r.stays.length
  | .t2 => r.t2
  | _ => 0

def Room.full (r : Room) (m : List (Nat × Page)) (t : Tier) : Bool := decide (r.pages t ≤ tierLoadIn m t)

/-- The stack that a T1 home or copy of page g is given: of those with a free page that stay, one of the tree asked for where
it has one, else any; which, no rule gives (R33, R212, R362; log entry 23). -/
def Room.stack (r : Room) (m : List (Nat × Page)) (g : Nat) (tree : Option Nat) : Nat :=
  let free := r.stays.filter fun k => decide (stackLoadIn m k < stackPages)
  let near := free.filter fun k => tree.all fun t => t == k / 2
  let xs := if near.isEmpty then (if free.isEmpty then r.serves else free) else near
  xs.getD (Config.stackOf g r.now % xs.length) 0

/-- Where an unpinned WRITABLE page is placed: in the only one of T1 and T2 with a free page on a memory that stays, else as
the saddlebag chooses (R33, R362, R444; log entry 9). -/
def freeTier (r : Room) (m : List (Nat × Page)) (n : Nat) : Tier :=
  let full1 := r.full m .t1
  let full2 := r.full m .t2
  if full1 && !full2 then .t2 else if full2 && !full1 then .t1 else if Config.inT2 n then .t2 else .t1

/-- The data of a page has reached a tier at a stamp (R224). -/
def Page.reach (t : Tier) (now : Nat) (p : Page) : Page :=
  { p with since := (p.since.filter fun e => e.1 != t) ++ [(t, now)] }

/-- A change of a page that may bring its data to a tier where it was not: since the stamp `now` (R224). -/
def Page.moved (t : Tier) (now : Nat) (old new : Page) : Page :=
  if new.inTierT t && !old.inTierT t then new.reach t now else new

/-- A page whose T1 home or copy is to lie in a tree has it there. -/
def Page.near (r : Room) (m : List (Nat × Page)) (g : Nat) (tree : Option Nat) (p : Page) : Page :=
  if p.inTierT .t1 && !(tree.all fun t => t == p.stack / 2) then { p with stack := r.stack m g tree } else p

/-- A page with its home, or for a read-only page a copy too, in tier t. -/
def Page.put (r : Room) (m : List (Nat × Page)) (g : Nat) (t : Tier) (p : Page) : Page :=
  { p with home := if p.kind == .writable then t else p.home
           copies := if p.kind == .writable || p.copies.contains t then p.copies else p.copies ++ [t]
           stack := if t = .t1 && !p.inTierT .t1 then r.stack m g (hintTree p.hint) else p.stack }

/-- Stitches since a page was last used, at most 17. -/
def Page.idle (p : Page) : Nat := (posOf id (p.used :: p.uses)).getD 17

/-- The least recently used unpinned home in a tier, other than page g (R219). -/
def leastUsedIn (m : List (Nat × Page)) (t : Tier) (g : Nat) : Option (Nat × Page) :=
  (m.filter fun e => e.1 != g && e.2.kind == .writable && e.2.home == t && !hintPin e.2.hint).foldl (fun b e =>
    match b with
    | some x => if x.2.idle < e.2.idle then some e else b
    | none => some e) none

/-- The map once tier t has a free page for page g: where it is full, the least recently used unpinned home gives place, to
the other of T1 and T2 if that has a free page (R213, R219; log entry 9). -/
def Room.clear (r : Room) (m : List (Nat × Page)) (g : Nat) (t : Tier) : Option (List (Nat × Page)) :=
  if !r.full m t then some m
  else
    let other := if t = .t1 then Tier.t2 else .t1
    match leastUsedIn m t g with
    | some (k, p) => if r.full m other then none else some (writeAt Page.unmapped m k (p.moved other r.now (p.put r m k other)))
    | none => none

/-- Page g, as `p`, put in tier t if t has or is given a free page; else as it is (log entry 9). -/
def Room.place (r : Room) (m : List (Nat × Page)) (g : Nat) (t : Tier) (p : Page) : List (Nat × Page) :=
  match r.clear m g t with
  | some k => writeAt Page.unmapped k g (p.put r k g t)
  | none => writeAt Page.unmapped m g p

/-! ## Requests applied to the map (R211, R238) -/

/-- The map after page g, as `p`, takes a hint: pinned data moves to the tier PREFER names (R213), data in T1 to the tree AFF
names (R212); an unpinned WRITABLE page leaves the hub cache (R444). A pinned LENT page with no copy is fetched. -/
def Room.rehint (r : Room) (n g h : Nat) (p : Page) (m : List (Nat × Page)) : List (Nat × Page) :=
  let p := { p with hint := h }
  let stay := writeAt Page.unmapped m g (p.near r m g (hintTree h))
  match p.kind, (if hintPin h then tierOf (hintPrefer h) else none) with
  | .writable, some t => if p.home = t then stay else r.place m g t p
  | .writable, none => if p.home = .t0 then writeAt Page.unmapped m g (p.put r m g (freeTier r m n)) else stay
  | .library, some t => if p.loading || p.copies.contains t then stay else r.place m g t p
  | .lent, some t => if p.copies.isEmpty || p.copies.contains t then stay else r.place m g t p
  | _, _ => stay

/-- The map after one page g of a request. -/
def MapOp.onMap (r : Room) (n g : Nat) (m : List (Nat × Page)) (o : MapOp) : List (Nat × Page) :=
  let p := readAt Page.unmapped m g
  let set := writeAt Page.unmapped m g
  match o with
  | .map _ _ h => r.rehint n g h (({ Page.unmapped with kind := .writable, hint := h, home := .t3 } : Page).put r m g (freeTier r m n)) m
  | .unmap _ _ | .dropLoad _ _ | .lentEnd _ => set Page.unmapped
  | .hint _ _ h => r.rehint n g h p m
  | .loading _ _ h => set { Page.unmapped with kind := .library, hint := h, home := .t3, loading := true }
  | .library _ _ h => r.rehint n g h { p with loading := false } m
  | .lent first _ i laddr _ =>
    set { Page.unmapped with kind := .lent, hint := 0x4000, home := .t4, lender := some (i, laddr + pageSize * (g - first)) }

/-- The pages a request names. -/
def MapOp.pages (m : List (Nat × Page)) : MapOp → List Nat
  | .map f c _ | .unmap f c | .hint f c _ | .loading f c _ | .library f c _ | .dropLoad f c | .lent f c _ _ _ => (upTo c).map (· + f)
  | .lentEnd i => (m.filter fun e => e.2.kind == .lent && e.2.lender.any fun l => l.1 == i).map (·.1)

/-- The first page of a request whose placements are drawn. -/
def MapOp.first : MapOp → Nat
  | .map f _ _ | .hint f _ _ | .library f _ _ => f
  | _ => 0

/-- The map after a request. -/
def MapOp.apply (r : Room) (n : Nat) (o : MapOp) (m : List (Nat × Page)) : List (Nat × Page) :=
  (o.pages m).foldl (fun k g => o.onMap r (n + (g - o.first)) g k) m

/-- The boundary at which a change asked for now takes effect: the next one, or within its administration reserve the one
after it (R211). -/
def State.effectBoundary (s : State) : Nat :=
  if s.tsc.now + 10000 < s.sth.boundary then s.sth.boundary else s.sth.boundary + s.sth.period

/-- The map as it will stand at the next boundary (R216), which is that at which the change asked for would take effect
(log entry 58); the end of a lending that must wait longer is not yet in it (R232). -/
def State.mapAhead (s : State) : List (Nat × Page) :=
  (s.mapReqs.filter fun r => decide (r.notBefore ≤ s.effectBoundary)).foldl (fun m r => r.op.apply s.room s.free m) s.pages

/-- A change waits for a page. -/
def State.mapPending (s : State) (g : Nat) : Bool := s.mapReqs.any fun r => (r.op.pages s.pages).contains g

/-! ## Limits (R214) -/

def State.hubPages64 : Nat := 64
def State.t1Pages (s : State) : Nat := 512 * s.caps.hbmGib
def State.t2Pages (s : State) : Nat := 512 * s.caps.ddrGib

def mapWeight (m : List (Nat × Page)) : Nat × Nat × Nat :=
  m.foldl (fun w e => let v := e.2.weight; (w.1 + v.1, w.2.1 + v.2.1, w.2.2 + v.2.2)) (0, 0, 0)

/-- The code of R216 for a change of one page that adds to the weights of R214: zero when no limit is broken by it. -/
def State.limitCode (s : State) (w : Nat × Nat × Nat) (old new : Page) : Nat :=
  let a := old.weight
  let b := new.weight
  if (decide (a.1 < b.1) && decide (State.hubPages64 + s.t1Pages + s.t2Pages < w.1 + b.1 - a.1))
    || (decide (a.2.1 < b.2.1) && decide (64 < w.2.1 + b.2.1 - a.2.1)) then 4
  else if decide (a.2.2 < b.2.2) && decide (s.t1Pages - 32768 < w.2.2 + b.2.2 - a.2.2) then 5
  else 0

/-! ## The check of a page command (R215, R216) -/

/-- The operations of R215. -/
inductive PgOp where
  | nop | map | unmap | hint | move | query
  deriving DecidableEq, Repr

def PgOp.ofCode : Nat → PgOp
  | 1 => .map
  | 2 => .unmap
  | 3 => .hint
  | 4 => .move
  | 5 => .query
  | _ => .nop

/-- A read-only page keeps a copy where its present hint prefers it (R216). -/
def Page.moveClash (p : Page) (h : Nat) : Bool :=
  hintPrefer h == 0 || decide (3 < hintPrefer h)
    || (hintPrefer h == 3 && p.readOnly && (hintPrefer p.hint == 1 || hintPrefer p.hint == 2))

/-- The code for one page, before the limits. -/
def pageCode (o : PgOp) (h : Nat) (p : Page) : Nat :=
  match o with
  | .nop => 0
  | .map => if p.kind != .unmapped then 2 else if hintBad h then 6 else 0
  | .unmap => if p.kind == .unmapped then 3 else if !p.lentOut.isEmpty then 6 else 0
  | .hint => if p.kind == .unmapped then 3 else if hintBad h || p.hintClash h then 6 else 0
  | .move => if p.kind == .unmapped then 3 else if p.moveClash h then 6 else 0
  | .query => if p.kind == .unmapped then 3 else 0

/-- The page after MAP or HINT, for the limits. -/
def pageAfter (o : PgOp) (h : Nat) (p : Page) : Page :=
  match o with
  | .map => { Page.unmapped with kind := .writable, hint := h }
  | .hint => { p with hint := h }
  | _ => p

/-- The first failing page and its code; zero when none fails. MAPPED and UNMAPPED come before the limits and these before
KIND, as the codes of R216 are numbered. -/
def checkPages (s : State) (o : PgOp) (h : Nat) (m : List (Nat × Page)) :
    (n i g : Nat) → (w : Nat × Nat × Nat) → Nat × Nat
  | 0, _, _, _ => (0, 0)
  | n + 1, i, g, w =>
    let p := readAt Page.unmapped m g
    let c := pageCode o h p
    let q := pageAfter o h p
    let l := s.limitCode w p q
    if c == 2 || c == 3 then (i, c)
    else if l != 0 then (i, l)
    else if c != 0 then (i, c)
    else checkPages s o h m n (i + 1) (g + 1)
      (w.1 + q.weight.1 - p.weight.1, w.2.1 + q.weight.2.1 - p.weight.2.1, w.2.2 + q.weight.2.2 - p.weight.2.2)

/-- RESULT and INDEX of R216. -/
def State.pgCheck (s : State) (o : PgOp) (addr count hint : Nat) : Nat × Nat :=
  let n := if o = .query then 1 else count
  if o = .nop then (0, 0)
  else if addr % pageSize != 0 || n == 0 || decide (65536 < n) then (0, 1)
  else if lastPage < pageOf addr + n - 1 then (lastPage + 1 - pageOf addr, 1)
  else if o = .move && !s.hostMigrate then (0, 7)
  else checkPages s o hint s.mapAhead n 0 (pageOf addr) (mapWeight s.mapAhead)

/-! ## MOVE and QUERY (R215, R444) -/

/-- The tier in which a pinned page keeps its data (R213). -/
def Page.pinned (p : Page) : List Tier := if hintPin p.hint then (tierOf (hintPrefer p.hint)).toList else []

/-- MOVE on page g: a pinned page keeps its data where its hint places it, and only a pinned page lies in the hub cache when
it is WRITABLE (R209, R212); a tier with no free page takes no home (R362). In T1 the data lies in the tree its hint names. -/
def Page.moveTo (r : Room) (m : List (Nat × Page)) (g : Nat) (t : Tier) (p : Page) : Page :=
  let there := fun (p : Page) => (p.put r m g t).near r m g (hintTree p.hint)
  match p.kind with
  | .writable => if hintPin p.hint || t = .t0 || (p.home != t && r.full m t) then p else there p
  | .library => if p.loading then p else { there p with copies := p.pinned.filter (· != t) ++ [t] }
  | .lent => if p.copies.isEmpty then p else { there p with copies := p.pinned.filter (· != t) ++ [t] }
  | .unmapped => p

/-- WHERE of R444. -/
def Page.where_ (p : Page) : Nat :=
  if p.loading then 5
  else if p.lost then 6
  else match p.kind with
    | .unmapped => 0
    | .writable => match p.home with
      | .t0 => 0
      | .t1 => 1
      | _ => 2
    | .library => if p.copies.contains .t0 then 0 else if p.copies.contains .t1 then 1 else if p.copies.contains .t2 then 2 else 3
    | .lent => if p.copies.contains .t0 then 0 else if p.copies.contains .t1 then 1 else if p.copies.contains .t2 then 2 else 4

def PageKind.code : PageKind → Nat
  | .unmapped => 0
  | .writable => 1
  | .library => 2
  | .lent => 3

def State.queryWord (s : State) (g : Nat) : Nat :=
  let p := s.page g
  p.where_ * 256 + b2n (p.kind != .unmapped && hintPin p.hint) * 128 + b2n (s.mapPending g) * 64 + p.kind.code

/-- A request joins the queue of R211. -/
def requestMap (o : MapOp) (notBefore : Nat) (s : State) : State :=
  { s with mapReqs := s.mapReqs ++ [⟨s.tsc.now, o, notBefore⟩] }

def forPages (first count : Nat) (f : Nat → State → State) (s : State) : State :=
  forEach ((upTo count).map (· + first)) f s

/-- A page command of SBG_PG_CMD: checked, and accepted or not, its result placed (R215, R216). -/
def pageCommand (o : PgOp) (s : State) : State :=
  let addr := s.reg64 0x50120
  let count := bits (s.reg 0x50128) 0 17
  let hint := bits (s.reg 0x5012C) 0 16
  let r := s.pgCheck o addr count hint
  let s := { s with pgResult := r }
  if r.2 != 0 then s
  else
    let g := pageOf addr
    match o with
    | .nop => s
    | .map => requestMap (.map g count hint) 0 s
    | .unmap => requestMap (.unmap g count) 0 s
    | .hint => requestMap (.hint g count hint) 0 s
    | .move => match tierOf (hintPrefer hint) with
      | some t => forPages g count (fun p s =>
          if (s.page p).kind == .lent && (s.page p).copies.isEmpty then fetchTo t p s
          else onPage p (fun q => q.moved t s.tsc.now (q.moveTo s.room s.pages p t)) (readFlash p s)) s
      | none => s
    | .query => { s with pgState := s.queryWord g }

/-! ## At the boundary (R211) -/

/-- A page's bytes and poison are gone. -/
def wipePage (g : Nat) (s : State) : State :=
  { s with dev := clearRange (g * pageSize) (g * pageSize + pageSize) s.dev
           poison := s.poison.filter fun u => !(decide (g * 65536 ≤ u) && decide (u < g * 65536 + 65536)) }

/-- LENT pages that an association still holds. -/
def State.lentHeld (s : State) (i : Nat) : Bool := s.pages.any fun e => e.2.kind == .lent && e.2.lender.any fun l => l.1 == i

/-- An association whose last page has gone sends LEND_CLOSE and is free to be used again (R338); it keeps its lender's
name so that the message can be sent again. An opening whose host still waits for its answer keeps it; one already answered
NOREPLY does not: the lender, if it still opens it, meets LEND_CLOSE after it. -/
def closeBorrow (i : Nat) (s : State) : State :=
  if (s.borrow i).maps.isEmpty || s.lentHeld i || ((s.borrow i).opening.any fun o => o.host.isSome)
      || (s.mapReqs.any fun r => match r.op with | .lent _ _ j _ _ => j == i | _ => false) then s
  else
    let s := sendModule (.borrow i) .lendClose s
    onBorrow i (fun b => { b with opening := [], maps := [], fetches := [], waits := [], lost := false, ended := true }) s

/-- Wiped with the change: pages newly WRITABLE, and pages made UNMAPPED. -/
def MapOp.wipes : MapOp → Bool
  | .map _ _ _ | .unmap _ _ | .dropLoad _ _ | .lentEnd _ | .loading _ _ _ => true
  | _ => false

/-- How many placements the saddlebag may have chosen. -/
def MapOp.draws : MapOp → Nat
  | .map _ c _ | .hint _ c _ | .library _ c _ => c
  | _ => 0

/-- A pinned LENT page with no copy is fetched (R213); a page whose data a change has moved has it there since then (R224). -/
def settlePage (old : Page) (now g : Nat) (s : State) : State :=
  let p := s.page g
  if p.kind == .lent && p.copies.isEmpty then forEach p.pinned (fun t => fetchTo t g) s
  else onPage g (fun p => [Tier.t0, .t1, .t2].foldl (fun q t => old.moved t now q) p) s

/-- One change takes effect; the host that asked to borrow is answered once the pages are LENT (R337). -/
def applyReq (r : MapReq) (s : State) : State :=
  let gs := r.op.pages s.pages
  let s := match r.op with                        -- a pinned copy of a LIBRARY page is read from flash
    | .hint _ _ h | .library _ _ h => if hintPin h then forEach gs readFlash s else s
    | .unmap _ _ | .dropLoad _ _ => forEach gs freeFlash s
    | _ => s
  let s' := { s with pages := r.op.apply s.room s.free s.pages, free := s.free + r.op.draws }
  let s' := if r.op.wipes then forEach gs wipePage s' else s'
  let s' := forEach gs (fun g => settlePage (s.page g) s.tsc.now g) s'
  match r.op with
  | .loading _ _ _ => forEach gs placeFlash s'
  | .lentEnd i =>
    let s' := note 0x0206 1 s.tsc.now srcSaddle 0 0 ((s.borrow i).lender.getD 0) s'
    closeBorrow i s'
  | .unmap _ _ => forEach (upTo 8) closeBorrow s'
  | .lent _ _ _ _ host => sendSession host.1 (.lendResp 0 host.2) s'
  | _ => s'

/-- A change takes effect at the boundary b that was due at `due`: it was requested before the administration reserve of
the stitch that ends, which begins 10 µs before the time due (R44, R211). -/
def MapReq.dueAt (r : MapReq) (due b : Nat) : Bool := decide (r.time + 10000 < due) && decide (r.notBefore ≤ b)

/-- The changes requested in time for the boundary b, in the order of request. -/
def applyMap (due b : Nat) (s : State) : State :=
  forEach (s.mapReqs.filter fun r => r.dueAt due b) applyReq { s with mapReqs := s.mapReqs.filter fun r => !r.dueAt due b }

/-- A stitch of use is noted for every page (R219). -/
def ageUses (s : State) : State :=
  { s with pages := s.pages.map fun e => (e.1, { e.2 with
      uses := (e.2.used :: e.2.uses).take 16, used := false, writes := (e.2.wrote :: e.2.writes).take 16, wrote := false }) }

/-! ## Reads that wait for a page (R219, R226, R333, R338) -/

/-- A read that waits can be met. -/
def State.readable (s : State) (a n : Nat) : Bool := (pagesOf a n).all fun p => (s.page p).present

/-- The answer to a waiting read: a host's DATA_RESP or a borrower's LEND_DATA. -/
def answerRead (w : WaitRead) (s : State) : State :=
  let lost := s.poisoned w.addr w.len
  match w.who with
  | .session sid => sendSession sid (.dataResp w.addr (if lost then 5 else 0) w.rseq (if lost then [] else s.devBytes w.addr w.len))
      (dropOnce w.addr w.len s)
  | .lent i => sendModule (.lent i) (.lendData w.rseq (if lost then 7 else 0) (if lost then [] else s.devBytes w.addr w.len))
      (dropOnce w.addr w.len s)
  | _ => s

/-- Every waiting read whose pages are now present is answered, in order. -/
def serveWaits (s : State) : State :=
  forEach s.waitReads (fun w s =>
    if s.readable w.addr w.len then
      answerRead w { s with waitReads := s.waitReads.erase w }
    else s) s

/-! ## Migration and arrival (R218, R219, R223, R224, R362) -/

/-- A started, undecided or open schedule entry brings page g to a tier. -/
def State.scheduled (s : State) (g : Nat) (t : Tier) : Bool :=
  s.scheds.any fun c => c.on && c.windows.any fun w => w.target == t && (pagesOf w.addr w.len).contains g

/-- Some memory is being evacuated (R362). -/
def State.evacuating (s : State) : Bool := (s.spr.hbm.any fun h => h.leaving) || (s.spr.ddr.any fun d => d.leaving)

def tierAt : PageAt → Tier
  | .t0 => .t0
  | .t1 _ => .t1
  | .t2 => .t2

/-- The tree that a page's data in T1 is to lie at: that of an entry which brings it there, else that of its hint. -/
def State.treeFor (s : State) (g : Nat) : Option Nat :=
  (s.scheds.findSome? fun c => if c.on then
      c.windows.findSome? fun w => if w.target == .t1 && (pagesOf w.addr w.len).contains g then w.tree else none
    else none).orElse fun _ => hintTree (s.page g).hint

/-- Stack k may take page g's data: it stays, and lies in the tree the data is to lie at, if a stack of that tree has a free
page (R212, R362). -/
def State.mayLie (s : State) (g k : Nat) : Bool :=
  let free := s.room.stays.filter fun j => decide (stackLoadIn s.pages j < stackPages)
  s.room.stays.contains k
    && ((s.treeFor g).all (fun t => t == k / 2) || !(free.any fun j => (s.treeFor g).all fun t => t == j / 2))

/-- A place has room for the home of page g (R362). -/
def State.placeFree (s : State) (g : Nat) : PageAt → Bool
  | .t0 => false
  | .t1 k => s.mayLie g k && decide (stackLoadIn s.pages k < stackPages)
  | .t2 => !s.room.full s.pages .t2

/-- Free pages of T1: those of the memories that stay, less homes and copies (R219). -/
def State.t1Free (s : State) : Nat := s.room.pages .t1 - (s.pages.filter fun e => e.2.inTierT .t1).length

/-- A least recently used unpinned home in T1 (R219). -/
def State.leastUsed (s : State) (g : Nat) : Bool :=
  s.pages.all fun e => !(e.2.kind == .writable && e.2.home == .t1 && !hintPin e.2.hint) || decide (e.2.idle ≤ (s.page g).idle)

/-- A page has been used in at least 4 of the last 16 stitches; for a stream-once page its writes count (R212, R219). -/
def Page.hot (p : Page) : Bool := decide (4 ≤ ((if hintOnce p.hint then p.writes else p.uses).filter id).length)

/-- Page g lies on a stack that leaves. -/
def State.onLeaving (s : State) (g : Nat) : Bool :=
  (s.page g).inTierT .t1 && (s.spr.hbm[(s.page g).stack]?).any fun m => m.leaving

/-- The data of page g may leave the stack it lies on for another of T1: an evacuation and an entry or hint that names another
tree move it in either mode, the saddlebag on its own in hardware mode (R218, R219, R362). -/
def State.mayRestack (s : State) (g k : Nat) : Bool :=
  (s.page g).stack != k && (s.onLeaving g || !s.hostMigrate || (s.scheduled g .t1 && !((s.treeFor g).all fun t => t == (s.page g).stack / 2)))

/-- The home of an unpinned page may go to the other of T1 and T2: as a schedule directs, for an evacuation where it lies on a
memory that leaves or gives place to what does, and on the saddlebag's own choice in hardware mode, which promotes a page in
use to a free page of T1 and demotes the least recently used when fewer pages are free there than staging keeps (R214, R219,
R362). -/
def State.mayRetier (s : State) (g : Nat) (t : Tier) : Bool :=
  let p := s.page g
  s.scheduled g t
    || (t == .t2 && (s.onLeaving g || (s.evacuating && s.room.full s.pages .t1)))
    || (t == .t1 && (s.spr.ddr.any fun d => d.leaving) && s.room.full s.pages .t2)
    || (!s.hostMigrate
      && ((t == .t2 && decide (s.t1Free < 32768) && s.leastUsed g) || (t == .t1 && p.hot && decide (0 < s.t1Free))))

/-- The saddlebag may move page g to a place with room: a home between tiers or stacks, a pinned page to the tier its hint
names, a copy in T1 between stacks (R213, R218, R219, R362). -/
def State.mayMigrate (s : State) (g : Nat) (a : PageAt) : Bool :=
  let p := s.page g
  s.placeFree g a && match a, p.kind with
    | _, .unmapped => false
    | .t0, _ => false
    | .t1 k, .writable =>
      if p.home == .t1 then s.mayRestack g k else if hintPin p.hint then p.pinned.contains .t1 else s.mayRetier g .t1
    | .t1 k, _ => p.inTierT .t1 && s.mayRestack g k
    | .t2, .writable => p.home != .t2 && if hintPin p.hint then p.pinned.contains .t2 else s.mayRetier g .t2
    | .t2, _ => false

/-- A page's data takes its new place at the stamp `now`. -/
def Page.switchTo (a : PageAt) (now : Nat) (p : Page) : Page :=
  match a with
  | .t1 k => p.moved .t1 now { p with home := if p.kind == .writable then .t1 else p.home, stack := k.val }
  | a => p.moved (tierAt a) now { p with home := if p.kind == .writable then tierAt a else p.home }

/-- The data of a page switches to its new place at the stamp of the state. -/
def switchHome (g : Nat) (a : PageAt) (s : State) : State := onPage g (Page.switchTo a s.tsc.now) s

/-- MIGRATION_SWITCH: the new home takes over at one stamp; no byte changes (R218). A copy is begun after the last write to
the page, so none is in progress between commands; a write in its way is one that comes before it. -/
def execMigrationSwitch (t page : Nat) (place : PageAt) (s : State) : Host.Outcome State Fault Refusal :=
  done <| if !s.clockless && s.mayMigrate page place then switchHome page place (tick t s) else s

/-- A copy of a read-only page reaches a tier, with those that reads or commands wait for: a read that found none waits for
one in T1 (R215, R219). A copy in T1, if there was none, lies on stack k. -/
def Page.arrive (t : Tier) (now k : Nat) (p : Page) : Page :=
  let q := (t :: p.bound.filter (· != t)).foldl (fun p t =>
    (if p.copies.contains t then p else { p with copies := p.copies ++ [t] }).reach t now) { p with bound := [] }
  { q with stack := if p.copies.contains .t1 then p.stack else k }

/-- The stack for a copy of page g that reaches T1. -/
def State.stackFor (s : State) (g : Nat) : Nat := s.room.stack s.pages g (s.treeFor g)

/-- A copy of page g may come to a place: in T1, a stack that may take it. -/
def State.mayArrive (s : State) (g : Nat) : PageAt → Bool
  | .t1 k => s.mayLie g k
  | _ => true

/-- A page's copy reaches a place. -/
def bringCopy (g : Nat) (a : PageAt) (s : State) : State :=
  onPage g (Page.arrive (tierAt a) s.tsc.now (match a with
    | .t1 k => k.val
    | _ => s.stackFor g)) s

/-- PAGE_ARRIVAL: a page's data or copy reaches a place; reads that waited for it are met (R219, R223, R224). -/
def execPageArrival (t page : Nat) (place : PageAt) (s : State) : Host.Outcome State Fault Refusal :=
  done <|
    let p := s.page page
    if s.clockless then s else match p.kind with
    | .unmapped => s
    | .writable => if s.mayMigrate page place then switchHome page place (tick t s) else s
    | .library => if p.loading || !s.mayArrive page place then s else serveWaits (bringCopy page place (readFlash page (tick t s)))
    | .lent => if p.copies.isEmpty || !s.mayArrive page place then s else serveWaits (bringCopy page place (tick t s))

end Sys2Proof.Machine
end

