-- ==== Sys2Proof/Machine/Schedule.lean ====
section
/-! DEFINITION. Prefetch schedules (R220 to R229): entries and their checks, starting at a boundary, the decision at a
deadline, the decision log. -/

namespace Sys2Proof.Machine

/-! ## Registers -/

def schAddr (n off : Nat) : Nat := hubAddr 5 (0x400 + 0x40 * n + off)

/-- The words of a slot's registers. -/
def State.schedWords (s : State) (n : Nat) : List Nat := (upTo 16).map fun i => s.reg (schAddr n (4 * i))

/-- What the registers of a slot held when EN was set, for the boundary at which EN takes effect (R220, R241). -/
def Sched.begin (c : Sched) : Sched :=
  let w := fun (off : Nat) => c.asked.getD (off / 4) 0
  let d := fun (off : Nat) => w off + w (off + 4) * 2 ^ 32
  { on := true, base := d 0x00, count := bits (w 0x08) 0 20, job := bits (w 0x0C) 0 16, stitch0 := d 0x10
    forced := bit (w 0x18) 1, dlog := d 0x20, dlogCap := bits (w 0x28) 0 20, dir := d 0x30, dirCount := bits (w 0x38) 0 20
    next := 0, prev := none, windows := [], used := 0, sinceEn := c.sinceEn, ovf := c.ovf, misses := c.misses, cleared := false, asked := c.asked }

def State.schedEn (s : State) (n : Nat) : Bool := bit (s.reg (schAddr n 0x18)) 0

/-! ## Entries (R221, R222) -/

structure SchedEntry where
  addr : Nat
  len : Nat
  standin : Nat
  stitchRel : Nat
  deadlineNs : Nat
  ahead : Nat
  hold : Nat
  fmt : Nat
  sfmt : Nat
  flags : Nat
  klen : Nat
  rsv : Nat
  deriving DecidableEq, Repr

def State.schedEntry (s : State) (c : Sched) (e : Nat) : SchedEntry :=
  let n := fun o k => s.devNum (c.base + 64 * e + o) k
  { addr := n 0x00 8, len := n 0x08 8, standin := n 0x10 8, stitchRel := n 0x18 4, deadlineNs := n 0x1C 4, ahead := n 0x20 2
    hold := n 0x22 1, fmt := n 0x23 1, sfmt := n 0x24 1, flags := n 0x25 1, klen := n 0x26 4, rsv := n 0x2A 22 }

/-- Lines of KLEN elements that a region of LEN bytes holds: the most that its layout has room for. -/
def TFmt.lines (f : TFmt) (len klen : Nat) : Nat :=
  match f with
  | .blk b => if klen == 0 then 0 else len / b.group * 32 / ceilDiv klen 32
  | .kx16 => if klen == 0 then 0 else len / (2 * klen)
  | .f32 => if klen == 0 then 0 else len / (4 * klen)

/-- (STITCH_REL, DEADLINE_NS) compared. -/
def earlier (a b : Nat × Nat) : Bool := decide (a.1 < b.1) || (a.1 == b.1 && decide (a.2 < b.2))

/-- The checks of R222, given the entry before. -/
def SchedEntry.ok (e : SchedEntry) (prev : Option (Nat × Nat)) : Bool :=
  match TFmt.ofSrc e.fmt with
  | none => false
  | some f =>
    let sok := if e.standin == 0 then e.sfmt == 0
      else decide (3 ≤ e.sfmt) && (TFmt.ofSrc e.sfmt).any fun g => decide (g.width ≤ f.width)
    e.rsv == 0 && bits e.flags 0 3 == 0 && decide (bits e.flags 6 2 ≤ 1) && sok && e.addr % 32 == 0 && e.standin % 32 == 0
      && decide (e.addr + e.len ≤ 2 ^ 46) && f.size (f.lines e.len e.klen) e.klen == e.len
      && decide (e.deadlineNs < 50000000) && !(prev.any fun p => earlier (e.stitchRel, e.deadlineNs) p)

/-- ARG of a schedule event (R240). -/
def schedArg (n e : Nat) : Nat := n * 2 ^ 28 + e % 2 ^ 20

def SchedEntry.window (e : SchedEntry) (i : Nat) : Window :=
  { entry := i, addr := e.addr, len := e.len, standin := e.standin, stitchRel := e.stitchRel, deadlineNs := e.deadlineNs
    hold := e.hold, fmt := e.fmt, sfmt := e.sfmt, klen := e.klen, target := if bits e.flags 6 2 == 1 then .t0 else .t1
    tree := if bit e.flags 5 then some (bits e.flags 3 2) else none
    decided := false, outcome := .none, deadline := 0 }

/-- An entry's start asks for its LENT pages that have no copy yet (R223, R338). -/
def askRegion (target : Tier) (a n : Nat) (s : State) : State :=
  forEach ((pagesOf a n).filter fun p => (s.page p).kind == .lent && (s.page p).copies.isEmpty) (fetchTo target) s

/-- Start every entry whose start boundary has come, in table order (R223); `fuel` bounds the entries. An entry whose
bytes the device cannot use is skipped as one that fails R222. -/
def startEntries (n : Nat) : (fuel : Nat) → State → State
  | 0, s => s
  | fuel + 1, s =>
    let c := s.sched n
    if c.count ≤ c.next then s
    else
      let e := s.schedEntry c c.next
      let good := s.usable (c.base + 64 * c.next) 64 && e.ok c.prev
      let step := onSched n (fun c => { c with next := c.next + 1, prev := some (e.stitchRel, e.deadlineNs) })
      if !good then
        startEntries n fuel (step (note 0x0204 1 s.tsc.now srcSaddle c.job 0 (schedArg n c.next) s))
      else if s.sth.number + e.ahead < c.stitch0 + e.stitchRel then s
      else
        startEntries n fuel (askRegion (e.window c.next).target e.addr e.len
          (onSched n (fun k => { k with windows := k.windows ++ [e.window c.next] }) (step s)))

/-- A slot at the boundary: EN taking effect, windows that have ended, entries that start (R220, R223, R226). -/
def boundarySched (n : Nat) (s : State) : State :=
  let en := s.schedEn n
  let stop := !en || (s.sched n).cleared
  let s := if stop then onSched n (fun c => { c with on := false, windows := [], cleared := false }) s else s
  let s := if en && !(s.sched n).on then onSched n Sched.begin s else s
  if !en then s
  else
    let c := s.sched n
    let keep := fun (w : Window) => !w.decided || decide (s.sth.number ≤ c.stitch0 + w.stitchRel + w.hold)
    let s := onSched n (fun c => { c with windows := c.windows.filter keep }) s
    startEntries n (c.count - c.next) s

/-! ## The deadline (R223 to R225, R228, R229) -/

/-- The deadline of an entry. -/
def State.schedDeadline (s : State) (c : Sched) (w : Window) : Nat := s.inStitch (c.stitch0 + w.stitchRel) w.deadlineNs

/-- An entry has arrived by a deadline: an arrival stamped at the deadline or after it is late (R224). -/
def State.arrived (s : State) (w : Window) (d : Nat) : Bool :=
  (pagesOf w.addr w.len).all fun g => (s.page g).inTierT w.target
    && (s.page g).since.all fun e => e.1 != w.target || decide (e.2 < d)

def State.regionReadOnly (s : State) (w : Window) : Bool := (pagesOf w.addr w.len).any fun p => (s.page p).readOnly

/-- A stand-in page that serves: WRITABLE, or pinned read-only with a copy in T0 to T2 (R225). -/
def Page.resident (p : Page) : Bool :=
  match p.kind with
  | .writable => true
  | .unmapped => false
  | _ => !p.loading && hintPin p.hint && p.present

/-- The stand-in of an entry can serve. -/
def State.standinOk (s : State) (w : Window) : Bool :=
  match TFmt.ofSrc w.fmt, TFmt.ofSrc w.sfmt with
  | some f, some g => w.standin != 0
      && (pagesOf w.standin (g.size (f.lines w.len w.klen) w.klen)).all fun p => decide (p ≤ lastPage) && (s.page p).resident
  | _, _ => false

/-- An entry is named in the directive list (R229). -/
def State.directive (s : State) (c : Sched) (w : Window) : Bool :=
  (upTo c.dirCount).any fun i =>
    let r := s.devNum (c.dir + 8 * i) 8
    r / 2 ^ 32 == w.stitchRel && bits r 30 2 == 1 && bits r 0 20 == w.entry

/-- The outcome of an entry, with the event it sends: code, severity (R225, R229). -/
def State.schedOutcome (s : State) (c : Sched) (w : Window) (d : Nat) : Outcome × Option (Nat × Nat) :=
  if c.forced then
    if s.directive c w then (if s.standinOk w then (.standin, none) else (.forceFail, some (0x0203, 2)))
    else if s.arrived w d then (.none, none)
    else (.stall, none)
  else if s.arrived w d then (.none, none)
  else if !s.regionReadOnly w then (.none, some (0x0202, 0))
  else if s.standinOk w then (.standin, some (0x0200, 1))
  else (.stall, some (0x0201, 1))

def Outcome.code : Outcome → Nat
  | .none => 0
  | .standin => 1
  | .stall => 2
  | .forceFail => 3

/-- The record of R228, and its element in the step record (R270). -/
def dlogRecord (w : Window) (o : Outcome) : Nat := w.stitchRel * 2 ^ 32 + o.code * 2 ^ 30 + w.entry % 2 ^ 20

/-- The step that a job's schedule records fall to: the one COLLECTING (R270). -/
def onCollecting (job : Nat) (f : TStep → TStep) (s : State) : State :=
  match s.slotOf job with
  | some n => onSlot n (fun t => { t with steps := updateWhere (fun x => x.phase == .collecting) f t.steps }) s
  | none => s

/-- A record appended to the slot's log, or OVF when the log is full (R228). A log the device cannot use is full. -/
def logOutcome (n : Nat) (w : Window) (o : Outcome) (s : State) : State :=
  let c := s.sched n
  let a := c.dlog + 8 * c.used
  let r := dlogRecord w o
  if c.used < c.dlogCap && s.inWritable a 8 && !s.poisoned a 8 then
    onCollecting c.job (fun x => { x with standins := x.standins ++ [r + n * 2 ^ 26] })
      (onSched n (fun c => { c with used := c.used + 1, sinceEn := c.sinceEn + 1 }) (hubWrite a (leBytes 8 r) s))
  else onCollecting c.job (fun x => { x with dlogOvf := true }) (onSched n (fun c => { c with ovf := true }) s)

/-- The decision of one entry at its deadline d. -/
def decideEntry (n d : Nat) (w : Window) (s : State) : State :=
  let c := s.sched n
  let (o, ev) := s.schedOutcome c w d
  let settle := fun (v : Window) => { v with decided := true, outcome := o, deadline := d }
  let s := onSched n (fun c => { c with
    windows := updateWhere (fun v => v.entry == w.entry) settle c.windows
    misses := if o = .none then c.misses else sat32 (c.misses + 1) }) s
  let s := match ev with
    | some (code, sev) => note code sev d srcSaddle c.job 0 (schedArg n w.entry) s
    | none => s
  if o = .none then s else logOutcome n w o s

/-- SCHEDULE_DEADLINE: the entries of a slot are decided in the order of their deadlines. -/
def execScheduleDeadline (slot : Fin 16) (entry : Nat) (s : State) : Host.Outcome State Fault Refusal :=
  done <|
    let c := s.sched slot
    match c.windows.find? fun w => w.entry == entry && !w.decided with
    | none => s
    | some w =>
      let d := s.schedDeadline c w
      if !c.on || (c.windows.any fun v => !v.decided && (decide (s.schedDeadline c v < d)
          || (s.schedDeadline c v == d && decide (v.entry < w.entry)))) then s
      else decideEntry slot d w (tick d s)

end Sys2Proof.Machine
end

