-- ==== Sys2Proof/Machine/Flash.lean ====
section
/-! DEFINITION. Poison (R236, R355, R370), the flash translation layer (R233 to R237) and library loads (R238, R334). -/

namespace Sys2Proof.Machine

/-! ## Poison -/

/-- A unit belongs to a region that a checkpoint has captured. -/
def State.ckpListed (s : State) (u : Nat) : Bool :=
  s.ckp.entries.any fun e => decide (e.addr / 32 ≤ u) && decide (32 * u < e.addr + e.len)

/-- A unit becomes poisoned: reported, counted, and the end of a checkpoint that lists it (R355, R370). -/
def poisonNote (u src : Nat) (s : State) : State :=
  let s := poisonUnit u s
  let s := note 0x0605 2 s.tsc.now src 0 0 (u / 65536) (onSpr (fun r => { r with memUe := sat32 (r.memUe + 1) }) s)
  if s.ckpListed u then ckpAbort 3 srcCkp s else s

/-- A LIBRARY page is LOST: marked, reported, and poisoned in every unit (R236, R355). -/
def losePage (g src : Nat) (s : State) : State :=
  let s := note 0x020A 2 s.tsc.now srcSaddle 0 0 g (onPage g (fun p => { p with lost := true }) s)
  forEach ((upTo 65536).map (· + g * 65536)) (fun u s => poisonNote u src s) s

/-! ## Flash blocks (R234, R235, R237) -/

/-- FTL_RELOCATION (R234): the layer has relocated a block that is due, or a program or erase of it has failed and it is
retired. In host-assisted mode it moves on its own only a block whose reads reach 100,000 (R237). -/
def execFtlRelocation (t : Nat) (block : BitVec 21) (failed : Bool) (s : State) : Host.Outcome State Fault Refusal :=
  done <|
    let b := block.toNat
    if s.clockless || (s.block b).retired then s
    else if failed then retireBlock b (tick t s)
    else if s.relocationDue b then relocate (decide ((s.block b).reads < 50000)) b (tick t s)
    else s

/-- RETENTION_SCAN: a block is read; it may need read retry (a fault of code 0x15, on the channel of log entry 24), and the
last retry level (R234). In host-assisted mode a scan that the host has not ordered is only reported due (R237). -/
def execRetentionScan (t : Nat) (block : BitVec 21) (retry lastLevel : Bool) (s : State) : Host.Outcome State Fault Refusal :=
  done <|
    let b := block.toNat
    if s.clockless || (s.block b).retired then s
    else if s.hostFtl && !s.ftl.scans.contains b then noteDue b (tick t s)
    else
      let s := onFtl (fun l => { l with scans := l.scans.filter fun k => k != b }) (tick t s)
      let s := if retry then noteFault 0x15 (srcFlash (channelOfBlock b)) s else s
      let s := readBlock b (onBlock b (fun k => { k with lastLevels := k.lastLevels + b2n lastLevel }) s)
      if 2 ≤ (s.block b).lastLevels then retireBlock b s
      else if retry then (if s.hostFtl then noteDue b s else relocate false b s)
      else s

/-- A write of SBG_FTL_CMD, which acts only in host-assisted mode (R237). -/
def ftlCommand (op b : Nat) (s : State) : State :=
  if !s.hostFtl || (s.block b).retired then s
  else if op == 1 then relocate false b s
  else if op == 2 then onFtl (fun l => { l with scans := if l.scans.contains b then l.scans else l.scans ++ [b] }) s
  else s

/-- LIBRARY pages, those still LOADING among them. -/
def State.libraryPages (s : State) : Nat := (s.pages.filter fun e => e.2.kind == .library).length

/-- Raw flash less retired blocks, in MiB (R233). -/
def State.goodFlash (s : State) : Nat := 33554432 - 16 * s.ftl.retired

/-- Over-provisioning held, in MiB (R235). -/
def State.overProv (s : State) : Nat := s.goodFlash - max (1024 * s.ftl.flashGib) (2 * s.libraryPages)

/-- User capacity after R235: the floor of 6.4 TiB is 67,108,864 tenths of a MiB. -/
def State.flashAfter (s : State) : Nat :=
  let held := s.goodFlash - 1024 * s.ftl.flashGib
  if 67108864 ≤ 10 * held then s.ftl.flashGib else s.ftl.flashGib - 64 * ceilDiv (67108864 - 10 * held) 655360

/-- R235 at a boundary. -/
def flashPressure (s : State) : State :=
  let g := s.flashAfter
  if g == s.ftl.flashGib then s
  else note 0x0208 2 s.tsc.now srcSaddle 0 0 g (onFtl (fun l => { l with flashGib := g }) s)

/-! ## Library loads (R238, R334) -/

def sendLib (sid rseq status : Nat) (s : State) : State := sendSession sid (.libResp status rseq) s

/-- LIBRARY pages on the map as it will stand, and whether user flash has room for more (R235). -/
def State.librarySpace (s : State) (count : Nat) : Bool :=
  decide (((s.mapAhead.filter fun e => e.2.kind == .library).length) + count ≤ 512 * s.ftl.flashGib)

/-- STATUS of LIB_BEGIN (R334): the lowest code that applies. -/
def State.libBeginStatus (s : State) (sid addr count hint : Nat) : Nat :=
  let g := pageOf addr
  if addr % pageSize != 0 || count == 0 || decide (65536 < count) || decide (lastPage < g + count - 1) || !hintRo hint || hintBad hint
  then 1
  else
    let m := s.mapAhead
    if (upTo count).any fun i => (readAt Page.unmapped m (g + i)).kind != .unmapped then 2
    else if !s.librarySpace count then 3
    else if (s.loads.any fun l => l.sid == sid) || decide (4 ≤ s.loads.length) then 4
    else 0

def libBegin (sid rseq addr count hint : Nat) (s : State) : State :=
  let st := s.libBeginStatus sid addr count hint
  if st != 0 then sendLib sid rseq st s
  else
    let g := pageOf addr
    sendLib sid rseq 0
      (requestMap (.loading g count hint) 0 { s with loads := s.loads ++ [⟨sid, g, count, hint, []⟩] })

/-- The load of a session at an address. -/
def State.loadAt (s : State) (sid addr : Nat) : Option Load := s.loads.find? fun l => l.sid == sid && l.first * pageSize == addr

def dropLoad (l : Load) (s : State) : State := { s with loads := s.loads.filter fun k => k != l }

/-- Every page has been written in full, and its bytes have reached flash. -/
def State.loadWhole (s : State) (l : Load) : Bool :=
  ((upTo l.count).all fun i => (s.page (l.first + i)).loading && readAt 0 l.written (l.first + i) == pageSize)
    && !(s.writes.any fun w => overlap w.addr w.bytes.length (l.first * pageSize) (l.count * pageSize))

def libCommit (sid rseq addr port : Nat) (s : State) : State :=
  match s.loadAt sid addr with
  | none => sendLib sid rseq 6 s
  | some l =>
    if !s.loadWhole l then sendLib sid rseq 5 s
    else
      note 0x050B 0 s.tsc.now (srcIngress port) 0 0 l.first
        (sendLib sid rseq 0 (requestMap (.library l.first l.count l.hint) 0 (dropLoad l s)))

/-- A load ends without a commit (R238). -/
def abortLoad (l : Load) (src : Nat) (s : State) : State :=
  note 0x050C 1 s.tsc.now src 0 0 l.first (requestMap (.dropLoad l.first l.count) 0 (dropLoad l s))

def libAbort (sid rseq addr port : Nat) (s : State) : State :=
  match s.loadAt sid addr with
  | none => sendLib sid rseq 6 s
  | some l => sendLib sid rseq 0 (abortLoad l (srcIngress port) s)

/-- The loads of a session that closes, or whose lingering ends. -/
def abortLoads (sid src : Nat) (s : State) : State := forEach (s.loads.filter fun l => l.sid == sid) (fun l s => abortLoad l src s) s

/-- The load of a session that holds a page. -/
def State.loadOf (s : State) (sid g : Nat) : Option Load :=
  s.loads.find? fun l => l.sid == sid && decide (l.first ≤ g) && decide (g < l.first + l.count)

/-- Parts of bytes a to a + n - 1 by page: page, first byte in the page, length. -/
def pageParts (a n : Nat) : List (Nat × Nat × Nat) :=
  (pagesOf a n).map fun g =>
    let lo := max a (g * pageSize)
    (g, lo - g * pageSize, min (a + n) (g * pageSize + pageSize) - lo)

/-- A load write stands at the next unwritten byte of each page it touches. -/
def Load.inOrder (l : Load) (a n : Nat) : Bool :=
  (pageParts a n).all fun p => readAt 0 l.written p.1 == p.2.1

def noteWritten (a n : Nat) (l : Load) : Load :=
  { l with written := (pageParts a n).foldl (fun w p => writeAt 0 w p.1 (p.2.1 + p.2.2)) l.written }

end Sys2Proof.Machine
end

