-- ==== Sys2Proof/Machine/Lending.lean ====
section
/-! DEFINITION. Lent memory (R230 to R232, R337, R338): the borrower's and the lender's sides of an association. -/

namespace Sys2Proof.Machine

def sendLendResp (sid rseq status : Nat) (s : State) : State := sendSession sid (.lendResp status rseq) s

/-! ## The borrower -/

/-- An association is in use: openings wait, pages are held or are to be held. -/
def State.borrowBusy (s : State) (i : Nat) : Bool := !(s.borrow i).opening.isEmpty || !(s.borrow i).maps.isEmpty || s.lentHeld i

/-- A free association: none of its messages waits to be acknowledged, or its lender has been given up (R323). -/
def State.borrowFree (s : State) (i : Nat) : Bool :=
  !s.borrowBusy i && ((s.borrow i).lost || (s.unackedTo (.borrow i) == 0 && s.queued.all fun q => q.1 != .borrow i))

/-- The association is one with a lender, and not over: its channel goes on. -/
def State.borrowGoesOn (s : State) (lender i : Nat) : Bool :=
  (s.borrow i).lender == some lender && !(s.borrow i).ended && !(s.borrow i).lost

/-- The association to a lender: the one not over, else a free one, the lowest that is over or was never used before any
other (R337; log entry 61). -/
def State.borrowFor (s : State) (lender : Nat) : Option Nat :=
  ((posOf (fun i => s.borrowBusy i && (s.borrow i).lender == some lender || s.borrowGoesOn lender i) (upTo 8)).orElse
    fun _ => posOf (fun i => s.borrowFree i && ((s.borrow i).lender.isNone || (s.borrow i).ended)) (upTo 8)).orElse
    fun _ => posOf (fun i => s.borrowFree i) (upTo 8)

/-- LENT pages held or to be held, and those asked for. -/
def State.lentPages (s : State) : Nat :=
  (s.mapAhead.filter fun e => e.2.kind == .lent).length
    + ((s.borrows.map fun b => (b.opening.map (·.count)).sum).sum)

/-- STATUS of a LEND_MAP that is answered at once; zero when LEND_OPEN is sent (R230, R337). -/
def State.lendMapStatus (s : State) (r : LendReq) : Nat :=
  let count := r.count.toNat
  let b := r.baddr.toNat
  if r.laddr.toNat % pageSize != 0 || b % pageSize != 0 || count == 0 || decide (lastPage < pageOf b + count - 1)
    || decide (lastPage < pageOf r.laddr.toNat + count - 1) then 1
  else if (upTo (min count 524289)).any fun i => (readAt Page.unmapped s.mapAhead (pageOf b + i)).kind != .unmapped then 2
  else if 524288 < s.lentPages + count || (s.borrowFor r.lender.toNat).isNone then 3
  else if !s.fabricOn then 4
  else 0

/-- LEND_MAP: the association is picked, a free one beginning anew, and LEND_OPEN sent; a lender given up for lost is tried again
(R323, R337). -/
def lendMap (sid rseq : Nat) (r : LendReq) (s : State) : State :=
  let st := s.lendMapStatus r
  match (if st != 0 then none else s.borrowFor r.lender.toNat) with
  | none => sendLendResp sid rseq st s
  | some i =>
    let same := s.borrowBusy i || s.borrowGoesOn r.lender.toNat i
    let fresh := fun (b : Borrow) => if same then b else { Borrow.reset with lender := some r.lender.toNat }
    let s := if same then tryLender i s else { s with
      unacked := s.unacked.filter fun u => u.dest != .borrow i
      queued := s.queued.filter fun q => q.1 != .borrow i }
    sendModule (.borrow i) (.lendOpen r)
      (onBorrow i (fun b => let b := fresh b
                            { b with opening := b.opening ++ [⟨some (sid, rseq), r.laddr.toNat, pageOf r.baddr.toNat, r.count.toNat, s.tsc.now⟩] }) s)

/-- LEND_ACCEPT answers the oldest LEND_OPEN; the host is answered when its pages become LENT, or at once where the lender
refuses (R337). Pages accepted too late for the host's answer are given up. -/
def lendAccept (i status : Nat) (s : State) : State :=
  match (s.borrow i).opening with
  | [] => s
  | o :: rest =>
    let s := onBorrow i (fun b => { b with opening := rest, lost := false }) s
    match o.host with
    | some (sid, rseq) =>
      if status == 0 then
        requestMap (.lent o.first o.count i o.laddr (sid, rseq)) 0
          (onBorrow i (fun b => { b with maps := b.maps ++ [(o.first, o.count, o.laddr)] }) s)
      else closeBorrow i (sendLendResp sid rseq status s)
    | none => if status == 0 && rest.isEmpty && !s.borrowBusy i then
        onBorrow i (fun b => { b with ended := true }) (sendModule (.borrow i) .lendClose s) else closeBorrow i s

/-- The local page that a lender's address is copied to. -/
def State.fetchingPage (s : State) (i laddr : Nat) : Option (Nat × Nat) :=
  (s.borrow i).fetches.findSome? fun f => match (s.page f.1).lender with
    | some (j, l) => if j == i && decide (l ≤ laddr) && decide (laddr < l + pageSize) then some (f.1, laddr - l) else none
    | none => none

/-- Bytes of a borrowed page arrive; when the page is whole it has a copy, and what waited for it is met (R219, R338). -/
def lendBytes (i g off n : Nat) (bs : Option (List Byte)) (s : State) : State :=
  let a := g * pageSize + off
  let s := match bs with
    | some bs => putBytes a bs s
    | none => forEach (unitsOf a n) (fun u s => poisonNote u (srcHbm 0) s) s
  let more := fun (f : Nat × Nat × Nat) => if f.1 == g then (f.1, f.2.1, f.2.2 + n) else f
  let s := onBorrow i (fun b => { b with fetches := b.fetches.map more }) s
  if (s.borrow i).fetches.any fun f => f.1 == g && decide (pageSize ≤ f.2.2) then
    let s := onBorrow i (fun b => { b with fetches := b.fetches.filter fun f => f.1 != g }) s
    serveWaits (onPage g (fun p => match p.bound ++ p.pinned with
      | t :: ts => ({ p with bound := p.bound ++ ts } : Page).arrive t s.tsc.now (s.stackFor g)
      | [] => p.arrive .t1 s.tsc.now (s.stackFor g)) s)
  else askLent i g 64 s

/-- LEND_DATA (R232, R338): STATUS LOST poisons what it answers for; another status ends the copy. -/
def lendData (i tag status : Nat) (data : List Byte) (s : State) : State :=
  match (s.borrow i).waits.find? fun w => w.tag == tag with
  | none => s
  | some w =>
    let s := onBorrow i (fun b => { b with waits := b.waits.filter fun v => v.tag != tag, lost := false }) s
    match s.fetchingPage i w.laddr with
    | none => s
    | some (g, off) =>
      if status == 0 && data.length == w.len then lendBytes i g off w.len (some data) s
      else if status == 7 then lendBytes i g off w.len none s
      else onBorrow i (fun b => { b with fetches := b.fetches.filter fun f => f.1 != g }) s

/-- LEND_NOTICE: the pages end at the first boundary at least 10 ms on (R232). -/
def lendNotice (i : Nat) (s : State) : State :=
  if s.mapReqs.any fun r => r.op == .lentEnd i then s else requestMap (.lentEnd i) (s.tsc.now + 10000000) s

/-- When the association's oldest unanswered message or read has waited 2 ms (R232, R323). -/
def State.lenderLostAt (s : State) (i : Nat) : Option Nat :=
  let ts := ((s.unacked.filter fun u => u.dest == .borrow i).map (·.first)) ++ (s.borrow i).waits.map (·.sent)
    ++ ((s.borrow i).opening.filter fun o => o.host.isSome).map (·.sent)
  (ts.foldl (fun m t => match m with | none => some t | some v => some (min v t)) none).map (· + 2000000)

/-- SBG_LEND_LOST: a lender that has not answered for 2 ms is lost (R232); openings that waited so long are answered NOREPLY
(R337). -/
def execSbgLendLost (index : Fin 8) (s : State) : Host.Outcome State Fault Refusal :=
  done <|
    match (s.borrow index).lender, s.lenderLostAt index with
    | some m, some t =>
      if (s.borrow index).lost then s
      else
        let s := tick t s
        let late := (s.borrow index).opening.filter fun o => decide (o.sent + 2000000 ≤ t)
        let s := onBorrow index (fun b => { b with
          lost := true
          opening := b.opening.map fun o => if o.sent + 2000000 ≤ t then { o with host := none } else o }) s
        closeBorrow index (forEach late (fun o s => match o.host with
            | some (sid, rseq) => sendLendResp sid rseq 5 s
            | none => s)
          (note 0x0205 2 t srcSaddle 0 0 m s))
    | _, _ => s

/-! ## The lender -/

/-- An association of this lender is in use. -/
def Lent.open_ (l : Lent) : Bool := !l.pages.isEmpty

/-- The association a borrower numbers `ch`. -/
def State.lentFor (s : State) (m ch : Nat) : Option Nat := posOf (fun l : Lent => l.borrower == some m && l.chanId == ch) s.lents

/-- Borrowers that hold pages now. -/
def State.borrowersNow (s : State) : List Nat := ((s.lents.filter Lent.open_).filterMap (·.borrower)).eraseDups

/-- A page may be lent: LIBRARY, or WRITABLE with RO set, now and as the map will stand (R231). -/
def Page.lendable (p : Page) : Bool :=
  match p.kind with
  | .library => !p.loading
  | .writable => hintRo p.hint
  | _ => false

/-- STATUS of LEND_ACCEPT (R230, R231, R337). -/
def State.lendOpenStatus (s : State) (borrower : Nat) (r : LendReq) : Nat :=
  let count := r.count.toNat
  let g := pageOf r.laddr.toNat
  if r.laddr.toNat % pageSize != 0 || count == 0 || decide (lastPage < g + count - 1) then 1
  else if !((upTo (min count 524289)).all fun i => (s.page (g + i)).lendable && (readAt Page.unmapped s.mapAhead (g + i)).lendable) then 2
  else if 524288 < count || (!s.borrowersNow.contains borrower && decide (4 ≤ s.borrowersNow.length)) then 3
  else if !bit (s.reg 0x90120) 0 then 4
  else 0

def lendOpen (i : Nat) (r : LendReq) (s : State) : State :=
  let m := (s.lent i).borrower.getD 0
  let st := s.lendOpenStatus m r
  if st != 0 then sendModule (.lent i) (.lendAccept st) s
  else
    let g := pageOf r.laddr.toNat
    let c := r.count.toNat
    sendModule (.lent i) (.lendAccept 0)
      (forPages g c (fun p s => onPage p (fun q => { q with lentOut := if q.lentOut.contains i then q.lentOut else q.lentOut ++ [i] }) s)
        (onLent i (fun l => { l with pages := l.pages ++ [(g, c)] }) s))

/-- LEND_READ (R231, R338, R355): served at once, or when the page has a copy to serve it from. -/
def lendRead (i laddr len tag : Nat) (s : State) : State :=
  let bad := laddr % 32 != 0 || len % 32 != 0 || len == 0 || decide (8160 < len) || pageOf laddr != pageOf (laddr + len - 1)
  if bad then sendModule (.lent i) (.lendData tag 1 []) s
  else if !(s.page (pageOf laddr)).lentOut.contains i then sendModule (.lent i) (.lendData tag 2 []) s
  else
    let w : WaitRead := ⟨.lent i, tag, laddr, len⟩
    let s := usePages laddr len s
    if s.readable laddr len || s.poisoned laddr len then answerRead w s else { s with waitReads := s.waitReads ++ [w] }

/-- The lender stops treating an association's pages as lent (R338). -/
def endLent (i : Nat) (s : State) : State :=
  let gs := (s.lent i).pages.flatMap fun p => (upTo p.2).map (· + p.1)
  forEach gs (fun g s => onPage g (fun q => { q with lentOut := q.lentOut.filter fun j => j != i }) s)
    (onLent i (fun l => { l with pages := [], notice := none, ended := true })
      { s with waitReads := s.waitReads.filter fun w => w.who != .lent i })

/-- LEND_END from a host: every association of the borrower receives LEND_NOTICE. -/
def lendEnd (sid rseq borrower : Nat) (s : State) : State :=
  let is := (upTo s.lents.length).filter fun i => (s.lent i).borrower == some borrower && (s.lent i).open_
  if is.isEmpty then sendLendResp sid rseq 1 s
  else
    sendLendResp sid rseq 0
      (forEach (is.filter fun i => (s.lent i).notice.isNone) (fun i s => sendModule (.lent i) .lendNotice
        (onLent i (fun l => { l with notice := some s.tsc.now }) s)) s)

/-- LEND_NOTICE_TIMEOUT: 100 ms after LEND_NOTICE (R338). -/
def execLendNoticeTimeout (index : Nat) (s : State) : Host.Outcome State Fault Refusal :=
  done <|
    match (s.lent index).notice with
    | some t => endLent index (tick (t + 100000000) s)
    | none => s

end Sys2Proof.Machine
end

