-- ==== Sys2Proof/Machine/Checkpoint.lean ====
section
/-! DEFINITION. Checkpoints and snapshots (R272, R273, R366 to R370): arming, the capture, the stream, first writes, and the
host-assisted mode. -/

namespace Sys2Proof.Machine

/-! ## Arming (R366) -/

def State.ckpSlot (s : State) : Nat := bits (s.reg 0xB0100) 0 4
def State.ckpStep (s : State) : Nat := s.reg64 0xB0108
def State.ckpSid (s : State) : Nat := bits (s.reg 0xB011C) 0 24

/-- A step of a slot has been RETIRED. -/
def State.stepRetired (s : State) (n c : Nat) : Bool := ((s.slot n).find c).any fun x => x.phase == .retired

/-- Whether a write of ARM is accepted. -/
def State.ckpMayArm (s : State) : Bool :=
  !ckpBusy s.ckp.phase && s.trnOn s.ckpSlot && !s.stepRetired s.ckpSlot s.ckpStep
    && (s.hostCkp || (s.session s.ckpSid).any fun x => x.phase == .open_)

def ckpArm (s : State) : State :=
  onCkp (fun k => { Ckp.reset with phase := .armed, cause := k.cause }) s

/-! ## The capture (R272, R366, R367) -/

def State.ckpEntry (s : State) (i : Nat) : CkpEntry × Bool :=
  let a := s.reg64 0xB0110 + 32 * i
  let n := fun o k => s.devNum (a + o) k
  let e : CkpEntry := ⟨n 0 8, n 8 8, n 0x10 4, n 0x14 1 % 2 == 1⟩
  (e, n 0x14 1 ≤ 1 && n 0x15 11 == 0 && e.addr % 32 == 0 && e.len % 32 == 0
    && (if e.kx8 then decide (0 < e.klen) && e.len % (4 * e.klen) == 0 else e.klen == 0)
    && s.inWritable e.addr e.len)

/-- Lines of a marked entry, and blocks of its stream. -/
def CkpEntry.blocks (e : CkpEntry) : Nat := if e.klen == 0 then 0 else e.len / (4 * e.klen) * ceilDiv e.klen 32

/-- Bytes streamed for an entry. -/
def CkpEntry.streamed (e : CkpEntry) : Nat := if e.kx8 then 1056 * ceilDiv e.blocks 32 else e.len

/-- The 32 inputs of block b of a marked entry: the line's padding is zero. -/
def State.ckpInputs (s : State) (e : CkpEntry) (b : Nat) : List XVal :=
  let bpl := ceilDiv e.klen 32
  (upTo 32).map fun i =>
    let k := 32 * (b % bpl) + i
    if k < e.klen then XVal.ofF (decodeF b32 (s.devNum (e.addr + 4 * (b / bpl * e.klen + k)) 4)) else XVal.zero

/-- One group of a KX8 stream: a scale line and its 32 blocks; blocks beyond the tensor are zero codes (R81, R273). -/
def State.ckpGroup (s : State) (e : CkpEntry) (g : Nat) : List Byte :=
  let bs := (upTo 32).map fun j =>
    if 32 * g + j < e.blocks then
      let r := encodeBlock .kx8 false (s.ckpInputs e (32 * g + j))
      (leBytes 1 r.scale, Blk.kx8.pack r.codes)
    else (leBytes 1 0, List.replicate 32 0)
  bs.flatMap (·.1) ++ bs.flatMap (·.2)

def State.ckpBytes (s : State) (e : CkpEntry) : List Byte :=
  if e.kx8 then (upTo (ceilDiv e.blocks 32)).flatMap (s.ckpGroup e) else s.devBytes e.addr e.len

/-- The entry as the stream carries it: LEN is the bytes streamed for it. -/
def CkpEntry.head (e : CkpEntry) : List Byte :=
  leBytes 8 e.addr ++ leBytes 8 e.streamed ++ leBytes 4 e.klen ++ leBytes 1 (b2n e.kx8) ++ leBytes 11 0

def ckpTotal (es : List CkpEntry) (reclen : Nat) : Nat := 64 + (es.map fun e => 32 + e.streamed).sum + reclen

/-- The stream of R367. -/
def State.ckpStream (s : State) (n c : Nat) (es : List CkpEntry) : List Byte :=
  let reclen := s.trnStride n
  leBytes 4 0x54504B43 ++ leBytes 2 1 ++ leBytes 2 (s.trnJob n) ++ leBytes 8 c ++ leBytes 4 es.length ++ leBytes 4 reclen
    ++ leBytes 8 (ckpTotal es reclen) ++ leBytes 8 s.tsc.now ++ leBytes 24 0
    ++ (es.flatMap fun e => e.head ++ s.ckpBytes e) ++ s.devBytes (s.recordAt n (s.trnRec n) c) reclen

/-- The stream offset past the last byte that a page gives; `o` is the offset of the first entry. -/
def pageEnd (g : Nat) : (o : Nat) → List CkpEntry → Nat
  | _, [] => 0
  | o, e :: es =>
    let here := if (pagesOf e.addr e.len).contains g
      then (if e.kx8 then o + 32 + e.streamed else o + 32 + (min (e.addr + e.len) (g * pageSize + pageSize) - e.addr)) else 0
    max here (pageEnd g (o + 32 + e.streamed) es)

/-- Pages whose bytes have all been sent need no more protection, and leave the copy buffer. -/
def ckpFree (s : State) : State :=
  onCkp (fun c =>
    let live := fun (g : Nat) => decide (c.sent < pageEnd g 64 c.entries)
    { c with pages := c.pages.filter live, copied := c.copied.filter live }) s

/-- The window of the stream's session has room. -/
def State.ckpRoom (s : State) : Bool :=
  match s.session s.ckpSid with
  | some x => x.phase == .open_ && x.waiting.isEmpty && decide (s.unackedTo (.session x.sid) < 256)
  | none => false

/-- Send what the window of the session has room for (R323, R333, R367); `fuel` bounds the messages. -/
def ckpPump : (fuel : Nat) → State → State
  | 0, s => s
  | fuel + 1, s =>
    if s.ckp.phase != .streaming || s.ckp.stream.isEmpty || !s.ckpRoom then s
    else
      let n := ((s.session s.ckpSid).map Session.pushSize).getD 1
      let bs := s.ckp.stream.take n
      ckpPump fuel (ckpFree (onCkp (fun c => { c with stream := c.stream.drop n, sent := c.sent + bs.length })
        (sendSession s.ckpSid (.dataPush (s.reg 0xB0120) s.ckp.sent bs) s)))

/-- Bytes acknowledged: up to the first DATA_PUSH of the stream still on its way. -/
def State.ckpAcked (s : State) : Nat :=
  s.unacked.foldl (fun m u => match u.body with
    | .dataPush _ o _ => if u.dest == .session s.ckpSid then min m o else m
    | _ => m) s.ckp.sent

/-- The checkpoint is DONE (R368, R369). -/
def ckpFinish (s : State) : State :=
  note 0x0610 0 s.tsc.now srcCkp (s.trnJob s.ckpSlot) 0 s.ckpStep
    (onCkp (fun c => { c with phase := .done, entries := [], pages := [], copied := [] }) s)

/-- Progress after an acknowledgement (R368). -/
def ckpProgress (s : State) : State :=
  if s.ckp.phase != .streaming then s
  else
    let s := retryHeld (ckpPump 256 (onCkp (fun c => { c with acked := s.ckpAcked }) s))
    if s.ckp.stream.isEmpty && s.ckpAcked == s.ckp.total then ckpFinish (onCkp (fun c => { c with acked := c.total }) s) else s

/-- Every byte of the slot's fallback table lies in some entry. -/
def State.tableListed (s : State) (n : Nat) (es : List CkpEntry) : Bool :=
  (upTo (8 * s.trnLayers n)).all fun i => es.any fun e =>
    decide (e.addr ≤ s.trnTable n + i) && decide (s.trnTable n + i < e.addr + e.len)

/-- The capture at the moment step c of slot n is RETIRED (R272, R366, R370). -/
def ckpCapture (n c : Nat) (s : State) : State :=
  if s.ckp.phase != .armed || s.ckpSlot != n || s.ckpStep != c then s
  else
    let count := bits (s.reg 0xB0118) 0 16
    if count == 0 || !s.usable (s.reg64 0xB0110) (32 * count) then ckpAbort 5 srcCkp s
    else
      let es := (upTo count).map s.ckpEntry
      if !(es.all (·.2)) || !s.tableListed n (es.map (·.1)) then ckpAbort 5 srcCkp s
      else
        let es := es.map (·.1)
        if es.any fun e => s.poisoned e.addr e.len then ckpAbort 3 srcCkp s
        else
          let gs := (es.flatMap fun e => pagesOf e.addr e.len).eraseDups
          let host := s.hostCkp
          let stream := if host then [] else s.ckpStream n c es
          ckpProgress (onCkp (fun k => { k with
            phase := if host then .waiting else .streaming
            captureAt := s.tsc.now
            entries := es
            pages := gs
            copied := []
            stream := stream
            sent := 0
            acked := 0
            total := stream.length }) s)

/-! ## First writes and releases (R272, R368, R369) -/

/-- CKP_FIRST_WRITE: a write that meets captured pages waits while the engine copies them, if the buffer has room (R368). -/
def execCkpFirstWrite (t write : Nat) (s : State) : Host.Outcome State Fault Refusal :=
  done <|
    match s.writes.find? fun w => w.id == write with
    | none => s
    | some w =>
      let hit := (pagesOf w.addr w.bytes.length).filter fun g => s.ckp.pages.contains g
      if s.ckp.phase != .streaming || hit.isEmpty || decide (s.ckpBuffer < s.ckp.copied.length + hit.length) then s
      else onCkp (fun c => { c with pages := c.pages.filter fun g => !hit.contains g, copied := c.copied ++ hit }) (tick t s)

/-- CKP_RELEASE: one page, in host-assisted mode while WAITING (R369). -/
def ckpReleasePage (addr : Nat) (s : State) : Bool × State :=
  if s.ckp.phase != .waiting || !s.hostCkp || addr % pageSize != 0 then (false, s)
  else (true, retryHeld (onCkp (fun c => { c with pages := c.pages.filter fun g => g != pageOf addr }) s))

/-- CKP_DONE: every page, and the end of the checkpoint (R369). -/
def ckpDone (s : State) : Bool × State :=
  if s.ckp.phase != .waiting || !s.hostCkp then (false, s) else (true, retryHeld (ckpFinish s))

/-- CKP_CTRL.CANCEL (R370). -/
def ckpCancel (s : State) : State := ckpAbort 1 srcCkp s

/-- Session SID ended, or its lingering ended (R370). -/
def ckpSessionEnd (sid : Nat) (s : State) : State :=
  if ckpBusy s.ckp.phase && !s.hostCkp && s.ckpSid == sid then ckpAbort 2 srcCkp s else s

end Sys2Proof.Machine
end

