-- ==== Sys2Proof/Machine/Crypto.lean ====
section
/-! DEFINITION. The public-key and key-wrap algorithms the spec names: ECDSA P-384 (R379, R387, R388, R391) and AES key wrap
(R393). PRESUMED (log entry 11): the spec names the standards and does not restate them; the constants are those of
FIPS 186-5, SP 800-186 and FIPS 197, the steps those of RFC 6979 and RFC 3394. -/

namespace Sys2Proof.Machine

/-! ## P-384 -/

/-- The prime of the field, the coefficient b (a is −3), and the order n of the base point. -/
def p384 : Nat := 2 ^ 384 - 2 ^ 128 - 2 ^ 96 + 2 ^ 32 - 1
def b384 : Nat := 0xB3312FA7E23EE7E4988E056BE3F82D19181D9C6EFE8141120314088F5013875AC656398D8A2ED19D2A85C8EDD3EC2AEF
def n384 : Nat := 0xFFFFFFFFFFFFFFFFFFFFFFFFFFFFFFFFFFFFFFFFFFFFFFFFC7634D81F4372DDF581A0DB248B0A77AECEC196ACCC52973
def gx384 : Nat := 0xAA87CA22BE8B05378EB1C71EF320AD746E1D3B628BA79B9859F741E082542A385502F25DBF55296C3A545E3872760AB7
def gy384 : Nat := 0x3617DE4A96262C6F5D9E98BF9292DC29F8F41DBD289A147CE9DA3113B5F0B8C00A60B1CE1D7E819D7A431D7C90EA0E5F

/-- b to the power e modulo m, over the lowest `fuel` bits of e. -/
def powMod (m b : Nat) : (fuel e : Nat) → Nat
  | 0, _ => 1
  | fuel + 1, e =>
    let h := powMod m b fuel (e / 2)
    if e % 2 == 1 then h * h % m * b % m else h * h % m

/-- The inverse modulo a 384-bit prime. -/
def invMod (m a : Nat) : Nat := powMod m a 384 (m - 2)

def mulP (a b : Nat) : Nat := a * b % p384
def subP (a b : Nat) : Nat := (a + p384 - b) % p384

/-- A point (X / Z², Y / Z³), coordinates below p; Z is 0 at infinity. -/
structure Point where
  x : Nat
  y : Nat
  z : Nat
  deriving DecidableEq, Repr

def Point.zero : Point := ⟨1, 1, 0⟩
def Point.base : Point := ⟨gx384, gy384, 1⟩

def Point.double (p : Point) : Point :=
  let d := mulP p.z p.z
  let g := mulP p.y p.y
  let b := mulP p.x g
  let a := 3 * mulP (subP p.x d) (p.x + d) % p384
  let x := subP (mulP a a) (8 * b % p384)
  ⟨x, subP (mulP a (subP (4 * b % p384) x)) (8 * mulP g g % p384), 2 * mulP p.y p.z % p384⟩

def Point.add (p q : Point) : Point :=
  if p.z == 0 then q
  else if q.z == 0 then p
  else
    let pz := mulP p.z p.z
    let qz := mulP q.z q.z
    let u1 := mulP p.x qz
    let s1 := mulP p.y (mulP qz q.z)
    let h := subP (mulP q.x pz) u1
    let r := subP (mulP q.y (mulP pz p.z)) s1
    if h == 0 then (if r == 0 then p.double else Point.zero)
    else
      let hh := mulP h h
      let hhh := mulP h hh
      let v := mulP u1 hh
      let x := subP (subP (mulP r r) hhh) (2 * v % p384)
      ⟨x, subP (mulP r (subP v x)) (mulP s1 hhh), mulP h (mulP p.z q.z)⟩

/-- k times a point, over the lowest `fuel` bits of k. -/
def Point.mul (p : Point) : (fuel k : Nat) → Point
  | 0, _ => Point.zero
  | fuel + 1, k =>
    let h := (Point.mul p fuel (k / 2)).double
    if k % 2 == 1 then h.add p else h

/-- The affine coordinates of a point that is not at infinity. -/
def Point.affine (p : Point) : Nat × Nat :=
  let i := invMod p384 p.z
  (mulP p.x (mulP i i), mulP p.y (mulP i (mulP i i)))

/-- The public key of a private key, as the bytes X then Y. -/
def publicKey (d : Nat) : List Byte :=
  let q := (Point.base.mul 384 d).affine
  beBytes 48 q.1 ++ beBytes 48 q.2

/-- The point that 96 bytes X then Y spell, where it lies on the curve. -/
def publicPoint (pub : List Byte) : Option Point :=
  let x := ofBE (pub.take 48)
  let y := ofBE ((pub.drop 48).take 48)
  if x < p384 && decide (y < p384) && (y * y) % p384 == (x * x * x + (p384 - 3) * x + b384) % p384 then some ⟨x, y, 1⟩ else none

/-- KeyFromSeed of R387. -/
def keyFromSeed (s : List Byte) : Nat := ofBE s % (n384 - 1) + 1

/-- ECDSA verification of FIPS 186-5 under a public key, of a signature r then s over a digest of 48 bytes (R379). -/
def ecdsaVerify (pub sig digest : List Byte) : Bool :=
  let r := ofBE (sig.take 48)
  let s := ofBE ((sig.drop 48).take 48)
  match publicPoint pub with
  | none => false
  | some q =>
    if r == 0 || decide (n384 ≤ r) || s == 0 || decide (n384 ≤ s) then false
    else
      let w := invMod n384 s
      let x := (Point.base.mul 384 (ofBE digest * w % n384)).add (q.mul 384 (r * w % n384))
      x.z != 0 && x.affine.1 % n384 == r

/-- The signature (r, s) with a given k; none where the k does not serve. -/
def ecdsaWith (d k : Nat) (digest : List Byte) : Option (Nat × Nat) :=
  if k == 0 || decide (n384 ≤ k) then none
  else
    let r := (Point.base.mul 384 k).affine.1 % n384
    let s := invMod n384 k * ((ofBE digest + r * d) % n384) % n384
    if r == 0 || s == 0 then none else some (r, s)

/-- The candidates for k of RFC 6979 are tried in turn; `fuel` bounds them (one fails with a chance below 2 to the −190). -/
def rfc6979 (d : Nat) (digest : List Byte) : (fuel : Nat) → (key v : List Byte) → Option (Nat × Nat)
  | 0, _, _ => none
  | fuel + 1, key, v =>
    let v := hmac384 key v
    match ecdsaWith d (ofBE v) digest with
    | some sig => some sig
    | none =>
      let key := hmac384 key (v ++ [0])
      rfc6979 d digest fuel key (hmac384 key v)

/-- ECDSA P-384 by a private key over a digest, with k chosen as in RFC 6979 (R391): the bytes r then s. -/
def ecdsaSign (d : Nat) (digest : List Byte) : List Byte :=
  let x := beBytes 48 d ++ beBytes 48 (ofBE digest % n384)
  let v := List.replicate 48 1
  let key := hmac384 (List.replicate 48 0) (v ++ [0] ++ x)
  let v := hmac384 key v
  let key := hmac384 key (v ++ [1] ++ x)
  match rfc6979 d digest 16 key (hmac384 key v) with
  | some (r, s) => beBytes 48 r ++ beBytes 48 s
  | none => List.replicate 96 0

/-! ## AES-256 and key wrap -/

/-- The substitution table of FIPS 197, and its inverse: sixteen rows of sixteen bytes. -/
def sboxRows : List Nat := [
  0x637C777BF26B6FC53001672BFED7AB76, 0xCA82C97DFA5947F0ADD4A2AF9CA472C0,
  0xB7FD9326363FF7CC34A5E5F171D83115, 0x04C723C31896059A071280E2EB27B275,
  0x09832C1A1B6E5AA0523BD6B329E32F84, 0x53D100ED20FCB15B6ACBBE394A4C58CF,
  0xD0EFAAFB434D338545F9027F503C9FA8, 0x51A3408F929D38F5BCB6DA2110FFF3D2,
  0xCD0C13EC5F974417C4A77E3D645D1973, 0x60814FDC222A908846EEB814DE5E0BDB,
  0xE0323A0A4906245CC2D3AC629195E479, 0xE7C8376D8DD54EA96C56F4EA657AAE08,
  0xBA78252E1CA6B4C6E8DD741F4BBD8B8A, 0x703EB5664803F60E613557B986C11D9E,
  0xE1F8981169D98E949B1E87E9CE5528DF, 0x8CA1890DBFE6426841992D0FB054BB16]
def invSboxRows : List Nat := [
  0x52096AD53036A538BF40A39E81F3D7FB, 0x7CE339829B2FFF87348E4344C4DEE9CB,
  0x547B9432A6C2233DEE4C950B42FAC34E, 0x082EA16628D924B2765BA2496D8BD125,
  0x72F8F66486689816D4A45CCC5D65B692, 0x6C704850FDEDB9DA5E154657A78D9D84,
  0x90D8AB008CBCD30AF7E45805B8B34506, 0xD02C1E8FCA3F0F02C1AFBD0301138A6B,
  0x3A9111414F67DCEA97F2CFCEF0B4E673, 0x96AC7422E7AD3585E2F937E81C75DF6E,
  0x47F11A711D29C5896FB7620EAA18BE1B, 0xFC563E4BC6D279209ADBC0FE78CD5AF4,
  0x1FDDA8338807C731B11210592780EC5F, 0x60517FA919B54A0D2DE57A9F93C99CEF,
  0xA0E03B4DAE2AF5B0C8EBBB3C83539961, 0x172B047EBA77D626E169146355210C7D]

def subByte (rows : List Nat) (b : Byte) : Byte :=
  BitVec.ofNat 8 (rows.getD (b.toNat / 16) 0 / 256 ^ (15 - b.toNat % 16))

/-- Twice a byte in the field of FIPS 197. -/
def xtime (b : Byte) : Byte := b <<< 1 ^^^ (if b.msb then 0x1B else 0)

def xorBytes (a b : List Byte) : List Byte := List.zipWith (· ^^^ ·) a b

/-- Words of a key schedule, newest first, extended by `fuel` words; i is the number of the next. -/
def aesExpand : (fuel i : Nat) → (w : List (List Byte)) → List (List Byte)
  | 0, _, w => w
  | fuel + 1, i, w =>
    let prev := w.headD []
    let t :=
      if i % 8 == 0 then
        xorBytes ((prev.drop 1 ++ prev.take 1).map (subByte sboxRows)) [BitVec.ofNat 8 (2 ^ (i / 8 - 1)), 0, 0, 0]
      else if i % 8 == 4 then prev.map (subByte sboxRows)
      else prev
    aesExpand fuel (i + 1) (xorBytes (w.getD 7 []) t :: w)

/-- The fifteen round keys of an AES-256 key, last round first. -/
def aesKeys (key : List Byte) : List (List Byte) :=
  let w := aesExpand 52 8 (chunks 4 8 key).reverse
  (upTo 15).map fun r => ((w.drop (4 * r)).take 4).reverse.flatMap id

/-- The inverse of the row shifts: byte r of column c comes from column c − r. -/
def invShiftRows (b : List Byte) : List Byte := (upTo 16).map fun i => b.getD ((i + 16 - 4 * (i % 4)) % 16) 0

/-- The inverse of the column mixing, on one column. -/
def invMixColumn (c : List Byte) : List Byte :=
  let m := fun k => c.getD (k % 4) 0
  (upTo 4).map fun r =>
    let x1 := m r ^^^ m (r + 1) ^^^ m (r + 2) ^^^ m (r + 3)
    let x2 := xtime (m r ^^^ m (r + 1))
    let x4 := xtime (xtime (m r ^^^ m (r + 2)))
    let x8 := xtime (xtime (xtime x1))
    x8 ^^^ x4 ^^^ x2 ^^^ (x1 ^^^ m r)

/-- One block deciphered under AES-256 (FIPS 197). -/
def aesDecipher (keys : List (List Byte)) (block : List Byte) : List Byte :=
  let step := fun (b : List Byte) (k : List Byte) => xorBytes ((invShiftRows b).map (subByte invSboxRows)) k
  let b := ((keys.drop 1).take 13).foldl (fun b k => (chunks 4 4 (step b k)).flatMap invMixColumn)
    (xorBytes block (keys.headD []))
  step b (keys.getD 14 [])

/-- The steps of the unwrapping: a is the check value and r the key's blocks; t counts down to 1. -/
def unwrapSteps (keys : List (List Byte)) (n : Nat) : (t : Nat) → (a : List Byte) → (r : List (List Byte)) → List Byte × List (List Byte)
  | 0, a, r => (a, r)
  | t + 1, a, r =>
    let i := t % n
    let b := aesDecipher keys (xorBytes a (beBytes 8 (t + 1)) ++ r.getD i [])
    unwrapSteps keys n t (b.take 8) (setAt r i (b.drop 8))

/-- AES key unwrap of RFC 3394 of a 256-bit key; none when the integrity check fails (R393, R394). -/
def aesUnwrap (kw wrapped : List Byte) : Option (List Byte) :=
  let (a, r) := unwrapSteps (aesKeys kw) 4 24 (wrapped.take 8) (chunks 8 4 (wrapped.drop 8))
  if a == List.replicate 8 0xA6 then some (r.flatMap id) else none

/-! ## Certificates in DER (R388) -/

/-- A DER element: its tag, its length and its contents. -/
def der (tag : Byte) (body : List Byte) : List Byte :=
  let n := body.length
  tag :: (if n < 128 then beBytes 1 n else if n < 256 then 0x81 :: beBytes 1 n else 0x82 :: beBytes 2 n) ++ body

/-- A DER INTEGER that is not negative, of a value below 2 to the 384. -/
def derNat (n : Nat) : List Byte :=
  let b := (beBytes 49 n).dropWhile (· == 0)
  der 0x02 (if b.isEmpty || (b.headD 0).msb then 0 :: b else b)

/-- ecdsa-with-SHA384. -/
def derEcdsa : List Byte := der 0x30 (der 0x06 [0x2A, 0x86, 0x48, 0xCE, 0x3D, 0x04, 0x03, 0x03])

/-- The key of a certificate: id-ecPublicKey, secp384r1, the point uncompressed. -/
def derKey (pub : List Byte) : List Byte :=
  der 0x30 (der 0x30 (der 0x06 [0x2A, 0x86, 0x48, 0xCE, 0x3D, 0x02, 0x01] ++ der 0x06 [0x2B, 0x81, 0x04, 0x00, 0x22])
    ++ der 0x03 (0x00 :: 0x04 :: pub))

end Sys2Proof.Machine
end

