-- ==== Sys2Proof/Machine/Security.lean ====
section
/-! DEFINITION. The security engine and the boot partition (R378 to R398): measurements and reports, firmware images, the
key store and the protection map. -/

namespace Sys2Proof.Machine

/-! ## Measurements (R390) -/

/-- Extend Mk with a digest; the log takes an entry while it has room, and is FULL once it holds 64. -/
def extendM (k type : Nat) (d : List Byte) (s : State) : State :=
  let t := s.tsc.now
  onSec (fun c => { c with
    m := setAt c.m k (sha384 (c.m.getD k zero48 ++ d))
    mlog := if c.mlog.length < 64 then c.mlog ++ [⟨t, k, type, d⟩] else c.mlog
    mfull := c.mfull || decide (63 ≤ c.mlog.length)
    debugged := c.debugged || (type == 7 && decide (c.mlog.length < 64)) }) s

/-- A log entry as a report carries it, integers in network byte order (R391). -/
def MLog.bytes (e : MLog) : List Byte := beBytes 8 e.time ++ beBytes 1 e.reg ++ beBytes 1 e.type ++ beBytes 6 0 ++ e.digest

/-- Certificates are at most 1024 bytes (R391). -/
def cert (bs : List Byte) : List Byte := bs.take 1024

/-! ## Keys (R387, R388) -/

/-- The private identity key IK; its seed is closed with UDS once the AK certificate is signed. -/
def identityKey : Nat := keyFromSeed (hmac384 Config.uds (ascii "LZ-IK"))

/-- The compound value over M0 and M1. -/
def compoundValue (m0 m1 : List Byte) : List Byte := hmac384 Config.uds (ascii "LZ-CDI" ++ m0 ++ m1)

/-- The subject of the certificate: a name of one attribute, the serial number (R388). -/
def certSubject (serial : List Byte) : List Byte :=
  der 0x30 (der 0x31 (der 0x30 (der 0x06 [0x55, 0x04, 0x05] ++ der Config.certString serial)))

/-- What is signed of the certificate for AK: the serial number as subject, a validity to 99991231235959Z, AK's public key,
key usage of digitalSignature only, and the extension that holds M0 and M1. -/
def certBody (serial pub m0 m1 : List Byte) : List Byte :=
  der 0x30 (der 0xA0 (derNat 2) ++ derNat Config.certNumber ++ derEcdsa ++ Config.certIssuer
    ++ der 0x30 (Config.certFrom ++ der 0x18 (ascii "99991231235959Z")) ++ certSubject serial ++ derKey pub
    ++ der 0xA3 (der 0x30 (der 0x30 (der 0x06 [0x55, 0x1D, 0x0F] ++ der 0x04 (der 0x03 [0x07, 0x80]))
      ++ der 0x30 (Config.certExtHead ++ der 0x04 (Config.certExtPrefix ++ m0 ++ m1)))))

/-- The X.509 certificate that IK signs for AK (R388). -/
def signCert (serial pub m0 m1 : List Byte) : List Byte :=
  let body := certBody serial pub m0 m1
  let h := sha384 body
  let sig := ((upTo 16).findSome? fun i => ecdsaWith identityKey (1 + Config.certK h i % (n384 - 1)) h).getD (0, 0)
  der 0x30 (body ++ derEcdsa ++ der 0x03 (0x00 :: der 0x30 (derNat sig.1 ++ derNat sig.2)))

/-- Step 4 of R381, M1 already extended; `cdi` is made of the M0 and M1 before that. AK, the key-store key and the
onboarding key are derived, AK's certificate is signed, and UDS, IK and CDI are closed to every use until the next reset
(R387, R388). A RETURNED module derives none (R389). -/
def deriveKeys (cdi : List Byte) (s : State) : State :=
  let ak := keyFromSeed (hmac384 cdi (ascii "LZ-AK"))
  onSec (fun c =>
    if s.kept.lifecycle != 1 then { c with closed := true }
    else { c with
      ak := some ak
      kst := some ((hmac384 Config.uds (ascii "LZ-KEYSTORE")).take 32)
      onboard := some ((hmac384 Config.uds (ascii "LZ-ONBOARD")).take 32)
      akCert := signCert s.kept.serial (publicKey ak) (c.m.getD 0 zero48) (c.m.getD 1 zero48)
      closed := true }) s

/-! ## Reports (R391) -/

/-- The signed report over a nonce (R391). -/
def State.attestReport (s : State) (nonce : List Byte) : List Byte :=
  let c := s.sec
  let k := s.kept
  let ikc := cert Config.ikCert
  let akc := cert c.akCert
  let body := beBytes 4 0x54525441 ++ beBytes 2 1 ++ beBytes 2 s.modnum ++ beBytes 4 0x77200301 ++ beBytes 1 k.lifecycle
    ++ beBytes 1 (b2n c.mfull + 2 * b2n c.fallback + 4 * b2n c.debugged) ++ beBytes 2 c.mlog.length ++ padTo 16 0 k.serial
    ++ beBytes 8 s.tsc.now ++ beBytes 4 k.boots ++ beBytes 4 c.fwver ++ beBytes 1 c.svn ++ beBytes 1 k.counter
    ++ beBytes 14 0 ++ padTo 48 0 nonce ++ c.m.flatMap id ++ beBytes 2 ikc.length ++ beBytes 2 akc.length ++ beBytes 12 0
    ++ c.mlog.flatMap MLog.bytes ++ ikc ++ akc
  body ++ ecdsaSign (c.ak.getD 0) (sha384 body)

/-! ## Images (R378, R379) -/

/-- What R379 asks of a slot's image with the fuses as they stand. -/
def Kept.mayBoot (k : Kept) (i : FwImage) : Bool := i.valid && !bit k.revoked i.keyidx && decide (k.counter ≤ i.svn)

def Kept.image (k : Kept) (n : Nat) : FwImage := k.images.getD n ⟨false, 0, 0, 0, 0, zero48⟩

/-- The slot that boots: the preferred one, the other of A and B, GOLDEN (R381). -/
def Kept.bootSlot (k : Kept) : Option Nat := [k.pref, 1 - k.pref, 2].find? fun n => k.mayBoot (k.image n)

/-- An image in device memory checked under R379. -/
def State.imageAt (s : State) (a len : Nat) : Option FwImage :=
  let h := s.devBytes a 384
  let n := fun o k => ofLE ((h.drop o).take k)
  let body := s.devBytes (a + 384) (len - 384)
  let pub := (h.drop 0xC0).take 96
  let sig := (h.drop 0x120).take 96
  let d := sha384 (h.take 0x120 ++ body)
  let key := n 6 1
  if n 0 4 == 0x4D524946 && n 4 2 == 1 && n 9 1 == 3 && decide (key ≤ 3) && n 7 1 / 16 == 0 && decide (n 8 1 ≤ 128)
      && n 0xA 2 == 0 && n 0x18 168 == 0 && n 0x10 4 % 64 == 0 && decide (65536 ≤ n 0x10 4) && decide (n 0x10 4 ≤ 16777216)
      && n 0x14 4 % 4 == 0 && decide (n 0x14 4 < n 0x10 4) && sha384 pub == Config.keyHash key && !bit s.kept.revoked key
      && decide (s.kept.counter ≤ n 8 1) && ecdsaVerify pub sig d then
    some ⟨true, n 0xC 4, n 8 1, key, n 7 1, d⟩
  else none

/-- The slots the ROM checks, in order, up to the one that boots; VALID of each follows its check (R379, R381, R400). -/
def Kept.checked (k : Kept) : Kept :=
  let order := [k.pref, 1 - k.pref, 2]
  let failed := order.takeWhile fun n => !k.mayBoot (k.image n)
  failed.foldl (fun k n => { k with images := setAt k.images n { k.image n with valid := false } }) k

/-- The slot an update writes: whichever of A and B was not booted; with GOLDEN running, the one not preferred (log
entry 19). -/
def State.updateSlot (s : State) : Nat := if s.sec.booted ≤ 1 then 1 - s.sec.booted else 1 - s.kept.pref

/-- What blowing fuses to the running image would revoke anew. -/
def State.newRevoked (s : State) : Nat :=
  ((upTo 4).filter fun i => bit s.sec.revoke i && i != s.sec.keyidx && !bit s.kept.revoked i).foldl (fun n i => n + 2 ^ i) 0

/-- The digest that COMMIT_SVN extends M3 with: counter and revocation bits, one byte each (log entry 20). -/
def fuseDigest (counter revoked : Nat) : List Byte := sha384 (leBytes 1 counter ++ leBytes 1 revoked)

/-- RESULT is set, BUSY clears and BOOT_UPDATE is sent (R386). -/
def endUpdate (svn : Bool) (result : Nat) (s : State) : State :=
  note 0x0702 0 s.tsc.now srcFirmware 0 0 (256 * b2n svn + result) (onSec (fun c => { c with upd := none, updResult := result }) s)

/-- BOOT_UPDATE_END: UPDATE or COMMIT_SVN ends; `flashOk` when the slot was written and read back. -/
def execBootUpdateEnd (t : Nat) (flashOk : Bool) (s : State) : Host.Outcome State Fault Refusal :=
  done <|
    match s.sec.upd with
    | none => s
    | some (.image _ (a, len)) =>
      let s := tick t s
      if decide (len < 384) || !s.inWritable a len || len != s.devNum (a + 0x10) 4 + 384 then endUpdate false 3 s
      else match (if s.poisoned a len then none else s.imageAt a len) with
        | none => endUpdate false 2 s
        | some i =>
          let n := s.updateSlot
          if !flashOk then endUpdate false 5 (onKept (fun k => { k with images := setAt k.images n { k.image n with valid := false } }) s)
          else endUpdate false 1 (extendM 3 4 i.digest (onKept (fun k => { k with images := setAt k.images n i, pref := n }) s))
    | some .svn =>
      let s := tick t s
      if s.sec.svn ≤ s.kept.counter && s.newRevoked == 0 then endUpdate true 4 s
      else
        let r := s.kept.revoked + s.newRevoked
        let c := max s.kept.counter s.sec.svn
        endUpdate true 1 (extendM 3 5 (fuseDigest c r) (onKept (fun k => { k with counter := c, revoked := r }) s))

/-! ## The protection map (R395 to R397) -/

/-- The bit of CLASSES and PERM that a session class has: OPERATOR 0, JOB 1, MAINTENANCE 2. -/
def classBit (cls : Nat) : Nat := cls - 1

/-- A slot may open a session (R395). -/
def KeySlot.opens (k : KeySlot) (cls job : Nat) : Bool :=
  k.key.isSome && bit k.use 0 && bit k.classes (classBit cls) && (cls != 2 || (decide (k.jobMin ≤ job) && decide (job ≤ k.jobMax)))

/-- A host transfer is denied: some byte lies in a region whose PERM does not permit it (R397). -/
def State.regionDenies (s : State) (cls : Nat) (write : Bool) (a n : Nat) : Bool :=
  s.sec.map.regions.any fun r =>
    (pagesOf a n).any (fun p => decide (r.base ≤ p) && decide (p ≤ r.limit)) && !bit r.perm (2 * classBit cls + b2n write)

/-- The words of the SEC_ page from offset 0x100 (R400). -/
def State.secWord (s : State) (off : Nat) : Nat :=
  let c := s.sec
  let m := c.map
  if off == 0x100 then b2n c.lock
  else if off == 0x104 then s.kept.lifecycle * 256 + s.kept.revoked
  else if off == 0x108 then m.policy
  else if off == 0x10C then b2n c.mfull * 2 ^ 15 + c.mlog.length
  else if off == 0x120 || off == 0x124 then s.reg (0xD0000 + off)
  else if off == 0x12C then b2n c.ksBusy.isSome * 2 ^ 31 + b2n c.ksStaged * 2 + b2n c.ksRefused
  else if 0x200 ≤ off && decide (off < 0x220) then
    let k := m.slots.getD ((off - 0x200) / 4) KeySlot.empty
    b2n k.key.isSome * 2 ^ 31 + k.classes * 2 ^ 24 + k.use * 2 ^ 16 + b2n k.provision
  else if 0x220 ≤ off && decide (off < 0x240) then
    let k := m.slots.getD ((off - 0x220) / 4) KeySlot.empty
    k.jobMax * 2 ^ 16 + k.jobMin
  else if 0x300 ≤ off && decide (off < 0x400) then
    match m.regions[(off - 0x300) / 16]? with
    | some r =>
      if off % 16 == 0 then r.base else if off % 16 == 4 then r.limit else if off % 16 == 8 then 2 ^ 31 + r.perm else 0
    | none => 0
  else if 0x400 ≤ off && decide (off < 0x4C0) then
    ofBE (((c.m.getD ((off - 0x400) / 0x30) zero48).drop ((off - 0x400) % 0x30)).take 4)
  else 0

/-- What M2 is extended with (R383). -/
def State.mapDigest (s : State) : List Byte := sha384 ((upTo 192).flatMap fun i => leBytes 4 (s.secWord (0x100 + 4 * i)))

/-! ## The key store (R392 to R394) -/

/-- The default store; a RETURNED module derives no onboarding key (R389). -/
def State.defaultStore (s : State) : KeyStore :=
  { slots := ⟨s.sec.onboard, 5, 1, true, 1, 0xFFFE⟩ :: List.replicate 7 KeySlot.empty, policy := 14, regions := [] }

/-- One slot entry of a record, on the slot as the store holds it; none where R394 refuses it. `ks` is the session key. -/
def stageSlot (ks : Option (List Byte)) (old : KeySlot) (e : List Byte) : Option KeySlot :=
  let n := fun o k => ofLE ((e.drop o).take k)
  let wrapped := (e.drop 8).take 40
  let new : KeySlot := ⟨none, n 1 1, n 2 1, n 3 1 == 1, n 4 2, n 6 2⟩
  if n 1 1 / 8 != 0 || n 2 1 / 8 != 0 || decide (1 < n 3 1) || n 0x30 16 != 0 then none
  else match n 0 1 with
    | 0 =>
      if ofLE wrapped != 0 || (old.key.isNone && n 1 7 != 0) then none
      else some (if old.key.isNone then KeySlot.empty else { new with key := old.key })
    | 1 =>
      ks.bind fun k => (aesUnwrap ((hmac384 k (ascii "EDGIL-WRAP")).take 32) wrapped).map fun key => { new with key := some key }
    | 2 => if ofLE wrapped != 0 then none else some KeySlot.empty
    | _ => none

def stageSlots (ks : Option (List Byte)) : List KeySlot → List (List Byte) → Option (List KeySlot)
  | o :: os, e :: es => (stageSlot ks o e).bind fun k => (stageSlots ks os es).map (k :: ·)
  | _, _ => some []

/-- One region entry. -/
def stageRegion (e : List Byte) : Option Region :=
  let n := fun o k => ofLE ((e.drop o).take k)
  if n 0 4 ≤ n 4 4 && decide (n 4 4 ≤ lastPage) && n 8 2 / 64 == 0 && n 10 6 == 0 then some ⟨n 0 4, n 4 4, n 8 2⟩ else none

/-- The store a record of R393 makes, or none where R394 refuses it. -/
def stageStore (ks : Option (List Byte)) (old : KeyStore) (r : List Byte) : Option KeyStore :=
  let n := fun o k => ofLE ((r.drop o).take k)
  let nreg := n 0x20C 4
  let entries := (upTo 16).map fun i => (r.drop (0x210 + 16 * i)).take 16
  if n 0 4 != 0x5359454B || n 4 2 != 1 || n 6 2 != 0 || n 0x208 4 / 16 != 0 || decide (16 < nreg)
      || !((entries.drop nreg).all fun e => ofLE e == 0) then none
  else
    let regions := (entries.take nreg).filterMap stageRegion
    if regions.length != nreg then none
    else
      (stageSlots ks old.slots ((upTo 8).map fun i => (r.drop (8 + 64 * i)).take 64)).bind fun slots =>
        if slots.any fun k => k.key.isSome && bit k.classes 2 && k.provision then some ⟨slots, n 0x208 4, regions⟩ else none

/-- The record with every WRAPPED field zeroed (R390). -/
def zeroWrapped (r : List Byte) : List Byte :=
  r.mapIdx fun i b => if 8 ≤ i && decide (i < 0x208) && decide (8 ≤ (i - 8) % 64) && decide ((i - 8) % 64 < 48) then 0 else b

/-- KEY_STORE_STAGED: the record at the address GO named is taken or refused (R394). A poisoned record, one outside
WRITABLE pages, and a key wrapped for a session that has ended are refused (log entry 21). -/
def execKeyStoreStaged (t : Nat) (s : State) : Host.Outcome State Fault Refusal :=
  done <|
    match s.sec.ksBusy with
    | none => s
    | some (sid, a) =>
      let s := tick t s
      let r := s.devBytes a 0x310
      let ks := (s.session sid).map (·.ks)
      let s := onSec (fun c => { c with ksBusy := none }) s
      match (if s.inWritable a 0x310 && !s.poisoned a 0x310 then stageStore ks s.sec.map r else none) with
      | none => onSec (fun c => { c with ksRefused := true }) s
      | some st =>
        note 0x0703 1 s.tsc.now srcSecurity 0 0 0
          (extendM 3 6 (sha384 (zeroWrapped r))
            (onKept (fun k => { k with staged := some st }) (onSec (fun c => { c with ksStaged := true, ksRefused := false }) s)))

/-- SEC_DENIED (R398). -/
def noteDenied (sid : Nat) (s : State) : State := note 0x0705 1 s.tsc.now srcSecurity 0 0 sid s

end Sys2Proof.Machine
end

