-- ==== Sys2Proof/Machine/Time.lean ====
section
/-! DEFINITION. Time: the discipline of the counter (R59, R60, R309, R429), the sequencing of event records (R66) and the
writes that change the grid (R46, R47, R69). -/

namespace Sys2Proof.Machine

/-! ## Discipline (R60) -/

/-- REF of TSC_CONFIG. -/
def State.tscRef (s : State) : Nat := bits (s.reg 0x20114) 8 2

/-- A forward step of the counter: the grid moves with it, a pending origin too (R46, R47), and so do the stamps of the last
pulse and of a return to ON, from which time is counted (R433, R438). -/
def stepCounter (d : Nat) (s : State) : State :=
  let s := onTsc (fun c => { c with now := c.now + d, stepped := true, lastPulse := c.lastPulse.map (· + d) }) s
  let s := onPwr (fun p => { p with wokeAt := p.wokeAt + d }) s
  let s := onSth (fun h => { h with
    origin := h.origin + d
    start := h.start + d
    boundary := h.boundary + d
    change := h.change.map fun g => { g with origin := g.origin + d } }) s
  note 0x0108 1 s.tsc.now srcFirmware 0 0 d s

/-- The low 32 bits of a signed offset. -/
def offsetArg (o : Int) : Nat := (o % 2 ^ 32).toNat

/-- The counter is within ±20 ns of the reference: it locks, and leaves holdover. -/
def lockAt (o : Int) (s : State) : State :=
  let was := s.tsc.locked
  let s := onTsc (fun c => { c with locked := true, everLocked := true, holdover := false }) s
  if was then s else note 0x0106 0 s.tsc.now srcFirmware 0 0 (offsetArg o) s

/-- Lock was held and is lost (R68): HOLDOVER, with its event. -/
def holdOver (s : State) : State :=
  if !s.tsc.everLocked || s.tsc.holdover then onTsc (fun c => { c with locked := false }) s
  else note 0x0107 1 s.tsc.now srcFirmware 0 0 0 (onTsc (fun c => { c with locked := false, holdover := true }) s)

/-- An offset has been measured: counter less reference. Steps are forward only; the rest is slewed (R60). -/
def discipline (o : Int) (s : State) : State :=
  let mag := o.natAbs
  let first := !s.tsc.everLocked
  let s := onTsc (fun c => { c with offset := o }) s
  if o < 0 && (first || decide (1000000 < mag)) then
    lockAt 0 (stepCounter mag (onTsc (fun c => { c with slew := 0 }) s))
  else if mag ≤ 20 then lockAt o (onTsc (fun c => { c with slew := 0 }) s)
  else
    let k : Int := ((min 200000 (Config.slewPpb o) : Nat) : Int)
    holdOver (onTsc (fun c => { c with slew := if o < 0 then k else -k }) s)

/-- The reference is lost: holdover, once the counter has been locked. -/
def loseReference (s : State) : State :=
  if s.tsc.everLocked then holdOver (onTsc (fun c => { c with slew := 0, sync := none, delayReq := none }) s) else s

/-- The port that time is taken from: the lowest in service of the plane REF selects (R309). -/
def State.timePort (s : State) : Option Nat :=
  if s.tscRef ≤ 1 then (s.planePorts s.tscRef false).head? else none

/-- After a change of ports: with no port left on the reference plane the counter is in holdover (R309). -/
def checkReference (s : State) : State := if s.tscRef ≤ 1 && s.timePort.isNone then loseReference s else s

/-! ## IEEE 1588 (R309) -/

/-- A Sync is complete: its Delay_Req goes out. -/
def askDelay (id port : Nat) (s : State) : State :=
  emit (some port) .link none false (.delayReq id) (onTsc (fun c => { c with delayReq := some (id, c.now) }) s)

/-- PTP_MESSAGE: counted by its port, and acted on where time is taken from the port, in the domain of TSC_CONFIG, while
the servo runs (R59, R345). The offset is half the difference of the two directions (log entry 18). -/
def execPtpMessage (t : Nat) (port : Fin 8) (m : PtpFrame) (s : State) : Host.Outcome State Fault Refusal :=
  done <|
    if !(s.port port).link then s
    else
      let s := onPort port (fun p => { p with rx := p.rx + 1 }) (tick t s)
      if s.timePort != some port.val || s.fwDown.isSome || m.domain.toNat != bits (s.reg 0x20114) 0 8 then s
      else match m.msg with
      | .announce => s
      | .sync id twoStep origin corr =>
        if twoStep then onTsc (fun c => { c with sync := some (id, (t - corr).toNat, none) }) s
        else askDelay id port (onTsc (fun c => { c with sync := some (id, (t - corr).toNat, some origin) }) s)
      | .followUp id origin corr =>
        match s.tsc.sync with
        | some (i, t2, none) =>
          if i == id then askDelay id port (onTsc (fun c => { c with sync := some (i, (t2 - corr).toNat, some origin) }) s) else s
        | _ => s
      | .delayResp id receive corr =>
        match s.tsc.sync, s.tsc.delayReq with
        | some (_, t2, some t1), some (i, t3) =>
          if i == id then
            discipline ((((t2 : Int) - t1) - (((receive : Int) - corr) - t3)) / 2)
              (onTsc (fun c => { c with sync := none, delayReq := none }) s)
          else s
        | _, _ => s

/-! ## Pulse and time of day (R429) -/

/-- A pulse is ignored; three in a row put the counter in holdover. -/
def ignorePulse (s : State) : State :=
  let s := onTsc (fun c => { c with pulse := none, ignored := c.ignored + 1, todValid := false }) s
  if 3 ≤ s.tsc.ignored then loseReference s else s

/-- PPS_IN_PULSE: while REF selects the sideband the pulse waits for its frame; one that still waits is ignored. Otherwise it
has no frame (R438). -/
def execPpsInPulse (t : Nat) (s : State) : Host.Outcome State Fault Refusal :=
  done <|
    if s.clockless then s
    else
      let s := onTsc (fun c => { c with lastPulse := some t }) (tick t s)
      if s.tscRef != 2 then onTsc (fun c => { c with pulse := none, todValid := false }) s
      else onTsc (fun c => { c with pulse := some t }) (if s.tsc.pulse.isSome then ignorePulse s else s)

/-- A frame of R429 that is whole and VALID: its SECONDS. -/
def todSeconds (f : List Byte) : Option Nat :=
  let b := fun i => (f.getD i 0).toNat
  if f.length == 12 && b 0 == 0xA5 && b 1 == 0x5A && b 8 == 1 && b 9 == 0 && b 10 == 0
      && ((f.take 11).map (·.toNat)).sum % 256 == b 11
  then some (((f.drop 2).take 6).foldl (fun n x => n * 256 + x.toNat) 0) else none

/-- TOD_FRAME: it names the waiting pulse from 100 ms to 900 ms after it; an earlier frame names none. -/
def execTodFrame (t : Nat) (frame : List Byte) (s : State) : Host.Outcome State Fault Refusal :=
  done <|
    match s.tsc.pulse with
    | none => s
    | some p =>
      if s.tscRef != 2 || s.fwDown.isSome || decide (t < p + 100000000) then s
      else
        let s := tick t s
        match (if t ≤ p + 900000000 then todSeconds frame else none) with
        | some sec =>
          discipline ((p : Int) - sec * 1000000000)
            (onTsc (fun c => { c with pulse := none, ignored := 0, todValid := true }) s)
        | none => ignorePulse s

/-- TOD_FRAME_TIMEOUT: 900 ms after a pulse without a frame. -/
def execTodFrameTimeout (s : State) : Host.Outcome State Fault Refusal :=
  done <|
    match s.tsc.pulse with
    | some p => if s.tscRef == 2 then ignorePulse (tick (p + 900000000) s) else s
    | none => s

/-! ## Sequencing (R66, R335) -/

/-- The unsequenced record that comes first in the order of R61. -/
def EvtLog.first (l : EvtLog) : Option Evt :=
  (l.held.filter fun h => h.seq.isNone).foldl (fun b h => match b with
    | none => some h.evt
    | some e => if before (h.evt.time, h.evt.source) (e.time, e.source) then some h.evt else b) none

/-- Give the next number to the first record that equals e and has none. -/
def sequenceOne (e : Evt) (q : Nat) : List EvtHeld → List EvtHeld
  | [] => []
  | h :: hs => if h.seq.isNone && h.evt == e then { h with seq := some q } :: hs else h :: sequenceOne e q hs

/-- EVT_SEQUENCE: once the counter has passed its TIME by 2 µs, a record is numbered and sent to who subscribes. -/
def execEvtSequence (s : State) : Host.Outcome State Fault Refusal :=
  done <|
    match s.log.first with
    | none => s
    | some e =>
      let s := tick (e.time + 2000) s
      evtSweep (evtPumpAll (onLog (fun l => { l with held := sequenceOne e l.next l.held, next := l.next + 1 }) s))

/-- The hub flushes the records whose TIME the counter has passed by 2 µs (R44, R66); `fuel` bounds them. -/
def flushEvents : (fuel : Nat) → State → State
  | 0, s => s
  | fuel + 1, s =>
    match s.log.first with
    | none => s
    | some e =>
      if e.time + 2000 ≤ s.tsc.now then
        flushEvents fuel (onLog (fun l => { l with held := sequenceOne e l.next l.held, next := l.next + 1 }) s)
      else s

/-! ## Grid writes (R46) -/

/-- A change is pending: commands admitted to stitches at or after b return to the hold queue. -/
def pendGrid (c : GridChange) (s : State) : State :=
  let s := onSth (fun h => { h with change := some c }) s
  forEach (s.cmdIds fun k => k.phase == .admitted && decide (s.changeNumber c ≤ k.stitch)) hold s

/-- A write of STH_PERIOD: whether it is accepted, and the state after. -/
def writePeriod (v : Nat) (s : State) : Bool × State :=
  if s.sth.change.isSome || decide (v < 20000) || decide (50000000 < v) then (false, s)
  else (true, setReg 0x10100 v (pendGrid ⟨v, s.sth.boundary⟩ s))

/-- A write of STH_ORIGIN_LO is held (R69). -/
def writeOriginLo (v : Nat) (s : State) : Bool × State :=
  if s.sth.change.isSome then (false, s) else (true, onSth (fun h => { h with heldLo := v }) s)

/-- A write of STH_ORIGIN_HI completes the origin. DESIGN CHOICE, UNSAFE (R69, log 70): without a new write of
STH_ORIGIN_LO the low half last held is taken, 0 at reset. -/
def writeOriginHi (v : Nat) (s : State) : Bool × State :=
  let o := v * 2 ^ 32 + s.sth.heldLo
  if s.sth.change.isSome || decide (o < s.tsc.now + s.sth.period) then (false, s)
  else (true, pendGrid ⟨s.sth.period, o⟩ s)

end Sys2Proof.Machine
end

