-- ==== Sys2Proof/Machine/Net.lean ====
section
/-! DEFINITION. Ports, planes and sessions (R303 to R323, R339, R426, R427): links and MACsec, frames that need no session,
the handshake, and every way a session ends. -/

namespace Sys2Proof.Machine

/-! ## Frames and ports -/

/-- A frame arrives on a port whose link is up: counted (R342), then acted on where the port is in service (R305). -/
def arrive (t p : Nat) (f : State → State) (s : State) : State :=
  if !(s.port p).link then s
  else
    let s := onPort p (fun q => { q with rx := q.rx + 1 }) (tick t s)
    if s.inService p then f s else s

/-- A frame discarded under R310. -/
def rxDrop (p : Nat) (s : State) : State := onPort p (fun q => { q with rxDrop := sat32 (q.rxDrop + 1) }) s

/-- Change a port, with what its plane then does (R307, R439): EDG_PLANE_FOLD when its last port leaves service,
EDG_PLANE_RESTORE when one returns. The time reference may be lost with it (R309). -/
def watchPlane (p : Nat) (f : State → State) (s : State) : State :=
  let k := p / 4
  let was := !(s.planePorts k false).isEmpty
  let s := f s
  let is := !(s.planePorts k false).isEmpty
  let s :=
    if was && !is then
      note 0x0503 2 s.tsc.now (srcPort p) 0 0 k
        { s with planeLost := setAt s.planeLost k true, planeBack := setAt s.planeBack k false }
    else if !was && is && s.planeLost.getD k false then
      note 0x0504 1 s.tsc.now (srcPort p) 0 0 k { s with planeBack := setAt s.planeBack k true }
    else s
  checkReference s

/-- The traffic of a lost plane returns at the boundary after a port of it came back (R307). -/
def restorePlane (k : Nat) (s : State) : State :=
  if s.planeBack.getD k false then { s with planeBack := setAt s.planeBack k false, planeLost := setAt s.planeLost k false } else s

/-! ## Links (R303, R304) -/

/-- A mode's lanes are among the working ones. -/
def modeLanes (mode working : Nat) : Bool :=
  match mode with
  | 1 | 3 => bits working 0 4 == 15
  | 2 => bits working 0 2 == 3 || bits working 2 2 == 3
  | 4 => bits working 0 4 != 0
  | _ => false

/-- ALLOW and a partner's modes name mode m in bit 4 - m. -/
def modeAllowed (mode allow : Nat) : Bool := decide (1 ≤ mode) && decide (mode ≤ 4) && bit allow (4 - mode)

/-- The mode a port runs: the first that ALLOW, its lanes and its partner allow; zero for none. -/
def pickMode (allow working partner : Nat) : Nat :=
  (([1, 2, 3, 4].find? fun m => modeAllowed m allow && modeAllowed m partner && modeLanes m working)).getD 0

/-- A port that may train. -/
def State.mayTrain (s : State) (p : Nat) : Bool :=
  s.sec.boot == .ready && !s.pwr.inReset && (s.port p).supply && bit (s.reg (portAddr p 0x104)) 31

/-- The cage holds an optical module. PRESUMED (log entry 60): byte 85 of the identity, the media type of the management
interface that R427 names by its specification, is 0x03 for a passive copper cable. -/
def Port.optical (q : Port) : Bool := q.identity[85]?.any fun b => b != 0x03

/-- The modes the partner is taken to accept: every one with an optical module (R304). -/
def Port.partnerModes (q : Port) (partner : Nat) : Nat := if q.optical then 15 else partner

/-- EDG_LINK_UP: training ends with the lanes that work, of those not failed when the link dropped, and the modes the
partner accepts (R304); ALLOW, MACSEC and CAK_SLOT take effect (R342). `mode` keeps the last mode while the link is down,
for EDG_RATE_FALL. -/
def execEdgLinkUp (t : Nat) (port : Fin 8) (working partner : BitVec 4) (s : State) : Host.Outcome State Fault Refusal :=
  done <|
    let p := port.val
    let cfg := s.reg (portAddr p 0x104)
    let lanes := working.toNat &&& (15 - (s.port p).failed % 16)
    let modes := (s.port p).partnerModes partner.toNat
    let m := pickMode (bits cfg 27 4) lanes modes
    if (s.port p).link || !s.mayTrain p || m == 0 then s
    else
      let old := (s.port p).mode
      let s := watchPlane p (onPort p fun q => { q with
        link := true, mode := m, working := lanes, partner := modes, lowPower := false, secured := false
        allow := bits cfg 27 4, macsec := bits cfg 20 6 }) (tick t s)
      let s := note 0x0500 0 s.tsc.now (srcPort p) 0 0 (m * 16 + p) s
      if old != 0 && decide (old < m) then note 0x0502 1 s.tsc.now (srcPort p) 0 0 (m * 16 + p) s else s

/-- The secure association of a port is lost (R308). -/
def unsecure (p : Nat) (s : State) : State :=
  if (s.port p).secured then
    note 0x050A 2 s.tsc.now (srcPort p) 0 0 p (watchPlane p (onPort p fun q => { q with secured := false }) s)
  else s

/-- A link drops, and its secure association with it. The lanes its errors were confined to have failed; the next training
tries the others (R304). -/
def linkDown (p failed : Nat) (s : State) : State :=
  if !(s.port p).link then s
  else note 0x0501 1 s.tsc.now (srcPort p) 0 0 p
    (watchPlane p (onPort p fun q => { q with link := false, working := (q.working ||| failed) - failed, failed := failed }) (unsecure p s))

/-- EDG_LINK_DOWN, with the lanes to which its errors were confined: a fault of code 0x18 (R345). -/
def execEdgLinkDown (t : Nat) (port : Fin 8) (failed : BitVec 4) (s : State) : Host.Outcome State Fault Refusal :=
  done <| if (s.port port).link then linkDown port failed.toNat (noteFault 0x18 (srcPort port) (tick t s)) else s

/-- RETRAIN of EDG_PORT_CFG: the link goes down and trains anew, from any mode (R304). -/
def retrainPort (p : Nat) (s : State) : State := linkDown p 0 s

/-- CAGE_OVERCURRENT: the supply is removed until the module is reseated (R426). -/
def execCageOvercurrent (t : Nat) (port : Fin 8) (s : State) : Host.Outcome State Fault Refusal :=
  done <|
    if !(s.port port).supply || s.pwr.state == .off || s.pwr.state == .rising then s
    else linkDown port 0 (onPort port (fun q => { q with supply := false }) (tick t s))

/-- CAGE_MODULE_INSERTION, whatever the module is doing: the identity is read, the cage module held in low power, a removed
supply restored (R426, R427). -/
def execCageModuleInsertion (t : Nat) (port : Fin 8) (identity : List Byte) (s : State) : Host.Outcome State Fault Refusal :=
  done <|
    onPort port (fun q => { q with identity := identity, lowPower := true, supply := true, failed := 0 })
      (if s.clockless then s else linkDown port 0 (tick t s))

/-- MKA secures a port: the partner's key takes hold in both directions, where MACsec is on and CAK_SLOT holds a CAK
(R308). -/
def mkaSecures (p : Nat) (s : State) : State :=
  let k := s.keySlot (bits (s.port p).macsec 0 3)
  if (s.port p).link && bits (s.port p).macsec 4 2 != 0 && bit k.use 2 && k.key.isSome then
    watchPlane p (onPort p fun q => { q with secured := true }) s
  else s

/-- MKA_FRAME, on the uncontrolled port; `secures` when it completes the exchange. While the firmware restarts it is held
until the restart ends (R345). -/
def execMkaFrame (t : Nat) (port : Fin 8) (secures : Bool) (s : State) : Host.Outcome State Fault Refusal :=
  done <|
    if !(s.port port).link then s
    else
      let s := onPort port (fun q => { q with rx := q.rx + 1 }) (tick t s)
      if !secures then s
      else if s.fwDown.isSome then { s with fwMka := s.fwMka ++ [port.val] }
      else mkaSecures port s

/-- EDG_MACSEC_DOWN: the secure association is lost. -/
def execEdgMacsecDown (t : Nat) (port : Fin 8) (s : State) : Host.Outcome State Fault Refusal :=
  done <|
    if (s.port port).secured then unsecure port (tick t s) else s

/-- FRAME_DISCARD (R305, R308, R310). -/
def execFrameDiscard (t : Nat) (port : Fin 8) (macsec : Bool) (s : State) : Host.Outcome State Fault Refusal :=
  done <|
    if !(s.port port).link then s
    else onPort port (fun q =>
      if macsec then { q with rx := q.rx + 1, secDrop := sat32 (q.secDrop + 1) }
      else { q with rx := q.rx + 1, rxDrop := sat32 (q.rxDrop + 1) }) (tick t s)

/-- DST_MOD is this module's number, or on a host session 0xFFFF (R316). -/
def State.forMe (s : State) (d : Dest) (dst : Nat) : Bool :=
  match d with
  | .session _ => dst == 0xFFFF || dst == s.modnum
  | _ => dst == s.modnum

/-- A message dropped under R316. -/
def dropMessage (s : State) : State := { s with drops := sat32 (s.drops + 1) }

/-- MESSAGE_DROP (R316). -/
def execMessageDrop (t : Nat) (port : Fin 8) (s : State) : Host.Outcome State Fault Refusal :=
  done <| arrive t port dropMessage s

/-! ## Addresses (R310) -/

/-- The MAC address of a port: the base in fuses plus the port index. -/
def State.macOf (s : State) (p : Nat) : Nat := (s.kept.mac + p) % 2 ^ 48

/-- The IPv6 link-local address a MAC address gives under modified EUI-64. -/
def linkLocal (mac : Nat) : Nat :=
  0xFE80 * 2 ^ 112 + (((mac / 2 ^ 24) ^^^ 0x020000) * 2 ^ 40 + 0xFFFE * 2 ^ 24 + mac % 2 ^ 24)

def State.ip4 (s : State) (p : Nat) : Nat := s.reg (portAddr p 0x110)
def State.ip6 (s : State) (p : Nat) : Nat := (upTo 4).foldl (fun n w => n * 2 ^ 32 + s.reg (portAddr p (0x114 + 4 * w))) 0

/-- ARP_REQUEST: answered for the port's IPv4 address. -/
def execArpRequest (t : Nat) (port : Fin 8) (src : Nat) (target : Reg32) (s : State) : Host.Outcome State Fault Refusal :=
  done <| arrive t port (fun s =>
    if target != 0 && target.toNat == s.ip4 port then emit (some port) (.host src) none false (.arpReply target.toNat) s
    else rxDrop port s) s

/-- NEIGHBOUR_SOLICITATION: answered for the link-local and the global IPv6 address. -/
def execNeighbourSolicitation (t : Nat) (port : Fin 8) (src : Nat) (target : BitVec 128) (s : State) :
    Host.Outcome State Fault Refusal :=
  done <| arrive t port (fun s =>
    if target.toNat == linkLocal (s.macOf port) || (target != 0 && target.toNat == s.ip6 port) then
      emit (some port) (.host src) none false (.neighbourAdvert target.toNat) s
    else rxDrop port s) s

/-- ECHO_REQUEST to one of the port's addresses; an IPv4 request needs an IPv4 address. -/
def execEchoRequest (t : Nat) (port : Fin 8) (src : Nat) (v6 : Bool) (data : List Byte) (s : State) :
    Host.Outcome State Fault Refusal :=
  done <| arrive t port (fun s =>
    if v6 || s.ip4 port != 0 then emit (some port) (.host src) none false (.echoReply data) s else rxDrop port s) s

/-! ## Attestation (R339, R389, R391) -/

/-- ATTEST_REQ: answered at most 1000 times in a second, never by a RETURNED module. -/
def execAttestReq (t : Nat) (port : Fin 8) (src : Nat) (nonce : List Byte) (s : State) : Host.Outcome State Fault Refusal :=
  done <| arrive t port (fun s =>
    let recent := s.sec.attests.filter fun a => decide (s.tsc.now < a + 1000000000)
    if nonce.length != 48 then dropMessage s
    else if s.kept.lifecycle != 1 || decide (1000 ≤ recent.length) then onSec (fun c => { c with attests := recent }) s
    else emit (some port) (.host src) none false (.attestResp (s.attestReport nonce))
      (onSec (fun c => { c with attests := recent ++ [s.tsc.now] }) s)) s

/-! ## The end of a session (R321) -/

/-- Everything of a session goes. -/
def removeSession (sid src : Nat) (s : State) : State :=
  let s := ckpSessionEnd sid (abortLoads sid src s)
  evtSweep { s with
    sessions := s.sessions.filter fun x => x.sid != sid
    unacked := s.unacked.filter fun u => u.dest != .session sid
    waitReads := s.waitReads.filter fun w => w.who != .session sid }

/-- A session is closed, by CLOSE or by a write of EDG_CLOSE. -/
def closeSession (sid src : Nat) (s : State) : State :=
  match s.session sid with
  | some x =>
    if x.phase == .pending then s
    else removeSession sid src (note 0x0506 0 s.tsc.now src 0 0 sid s)
  | none => s

/-- A session is lost and lingers. -/
def loseSession (sid : Nat) (s : State) : State :=
  note 0x0507 1 s.tsc.now srcSession 0 0 sid
    (onSession sid (fun x => { x with phase := .linger, since := s.tsc.now }) s)

def State.idleNs (s : State) : Nat := 1000000000 * bits (s.reg 0x90114) 0 16
def State.rtoNs (s : State) : Nat := 1000 * bits (s.reg 0x90114) 16 16
def State.lingerNs (s : State) : Nat := 1000000 * bits (s.reg 0x90118) 0 16

/-- SESSION_IDLE_TIMEOUT: IDLE_S has passed without a delivered message. -/
def execSessionIdleTimeout (sid : Nat) (s : State) : Host.Outcome State Fault Refusal :=
  done <|
    match s.session sid with
    | some x => if x.phase == .open_ then loseSession sid (tick (x.since + s.idleNs) s) else s
    | none => s

/-- LINGER_END: everything undelivered is discarded. -/
def execLingerEnd (sid : Nat) (s : State) : Host.Outcome State Fault Refusal :=
  done <|
    match s.session sid with
    | some x => if x.phase == .linger then removeSession sid srcSession (tick (x.since + s.lingerNs) s) else s
    | none => s

/-! ## Retransmission (R323) -/

/-- How long after the last transmission a message is sent again. -/
def State.retxAfter (s : State) (d : Dest) (tries : Nat) : Nat :=
  match d with
  | .session _ => min (s.rtoNs * 2 ^ tries) 12800000
  | .reduction _ => min (20000 * 2 ^ tries) 320000
  | _ => 250000

def Dest.ofRef : ChanRef → Dest
  | .session sid => .session sid
  | .reduction m => .reduction m
  | .lending i => .borrow i.val
  | .lent i => .lent i

/-- A channel whose messages are retransmitted now: an open session, a reduction channel, a lender not given up. -/
def State.retxOn (s : State) : Dest → Bool
  | .session sid => (s.session sid).any fun x => x.phase == .open_
  | .borrow i => !(s.borrow i).lost
  | _ => true

/-- RETX_TIMER of one kept message: after 12 retransmissions to a host the session is lost. -/
def execRetxTimer (chan : ChanRef) (seq : Reg32) (s : State) : Host.Outcome State Fault Refusal :=
  done <|
    let d := Dest.ofRef chan
    match s.unacked.find? fun u => u.dest == d && u.seq == seq.toNat with
    | none => s
    | some u =>
      if !s.retxOn d then s
      else
        let s := tick (u.last + s.retxAfter d u.tries) s
        match chan with
        | .session sid =>
          if 12 ≤ u.tries then loseSession sid s
          else transmit d (some u.seq) true u.body
            { s with unacked := updateWhere (fun v => v.dest == d && v.seq == u.seq)
                       (fun v => { v with last := s.tsc.now, tries := v.tries + 1 }) s.unacked }
        | _ => transmit d (some u.seq) true u.body
            { s with unacked := updateWhere (fun v => v.dest == d && v.seq == u.seq)
                       (fun v => { v with last := s.tsc.now, tries := v.tries + 1 }) s.unacked }

/-! ## The handshake (R318 to R320) -/

/-- Refusal of a handshake: counted, EDG_AUTH_FAIL, REJECT. -/
def reject (port src slot reason sid : Nat) (nh : List Byte) (s : State) : State :=
  emit (some port) (.host src) none false (.reject reason sid nh)
    (note 0x0508 1 s.tsc.now (srcIngress port) 0 0 (reason * 256 + slot % 8) { s with authFails := sat32 (s.authFails + 1) })

/-- Sessions OPEN or LINGER. -/
def State.sessionsHeld (s : State) : Nat := (s.sessions.filter fun x => x.phase != .pending).length
def State.reservations (s : State) : Nat := (s.sessions.filter fun x => x.phase == .pending).length

/-- The lingering session that RESUME names for a slot and class. -/
def State.resumable (s : State) (sid slot cls : Nat) : Bool :=
  s.sessions.any fun x => x.sid == sid && x.phase == .linger && x.slot == slot && x.cls == cls

/-- The reason a HELLO is refused for, if any. DESIGN CHOICE (log entry 22): a slot out of range, then a lock, then the
other fields, the slot, RESUME and the limits. -/
def State.helloReason (s : State) (p : Hello) : Option Nat :=
  let slot := p.slot.toNat
  let cls := p.cls.toNat
  let job := p.job.toNat
  let maxp := p.maxp.toNat
  if 7 < slot then some 5
  else if (s.locks.getD slot none).isSome then some 4
  else if cls == 0 || decide (3 < cls) || (cls == 2 && (job == 0 || job == 0xFFFF)) || (cls != 2 && job != 0)
      || maxp % 32 != 0 || decide (maxp < 1024) || decide (8192 < maxp) then some 5
  else if !(s.keySlot slot).opens cls job then some 1
  else if p.resume != 0 && !s.resumable p.resume.toNat slot cls then some 7
  else if 32 ≤ s.sessionsHeld || 8 ≤ s.reservations then some 3
  else none

/-- The next identifier not in use, from 1 to 0x00FF_FFFF, wrapping. -/
def State.freeSid (s : State) : (fuel sid : Nat) → Nat
  | 0, n => n
  | fuel + 1, n =>
    let n := if n == 0 || decide (0xFFFFFF < n) then 1 else n
    if s.sessions.any fun x => x.sid == n then s.freeSid fuel (n + 1) else n

/-- The lowest free entry of EDG_SESS_n (log entry 28). -/
def State.freeEntry (s : State) : Nat := ((upTo 40).find? fun n => s.sessions.all fun x => x.entry != n).getD 40

/-- HELLO: CHALLENGE or REJECT. A repeat of a pending HELLO gets the same CHALLENGE. -/
def execHello (t : Nat) (port : Fin 8) (src : Nat) (p : Hello) (s : State) : Host.Outcome State Fault Refusal :=
  done <| arrive t port (fun s =>
    if p.rsv != 0 || p.nh.length != 32 then dropMessage s
    else
      let challenge := fun (x : Session) s =>
        emit (some port) (.host src) none false (.challenge x.sid s.modnum x.maxp 0x00010000 x.nh x.nm) s
      match s.sessions.find? fun x => x.phase == .pending && x.nh == p.nh && x.src == src with
      | some x => challenge x s
      | none =>
        match s.helloReason p with
        | some r => reject port src p.slot.toNat r 0 p.nh s
        | none =>
          let sid := s.freeSid 64 s.nextSid
          let (n, s) := draw s
          let x : Session :=
            { sid := sid, phase := .pending, cls := p.cls.toNat, slot := p.slot.toNat, job := p.job.toNat
              maxp := p.maxp.toNat, resume := p.resume.toNat, nh := p.nh, nm := padTo 32 0 (Config.nonce n), src := src
              port := port, since := s.tsc.now, chan := Chan.reset, waiting := [], sub := none, entry := s.freeEntry, evtNext := 0, ks := [] }
          challenge x { s with
            sessions := s.sessions ++ [x]
            nextSid := sid + 1
            expired := s.expired.filter fun e => e.1 != sid }) s

/-- The bytes that P is computed over, after its label. -/
def Session.proofBytes (x : Session) : List Byte :=
  x.nh ++ x.nm ++ beBytes 4 x.sid ++ beBytes 1 x.slot ++ beBytes 1 x.cls ++ beBytes 2 x.job ++ beBytes 4 x.resume

/-- A PROOF refused: eight within 10 s lock the slot for 10 s (R320). -/
def refuseProof (port src : Nat) (x : Session) (s : State) : State :=
  let s := reject port src x.slot 2 x.sid x.nh s
  let seen := (s.refusals.filter fun r => decide (s.tsc.now < r.2 + 10000000000)) ++ [(x.slot, s.tsc.now)]
  let s := { s with refusals := seen }
  if (seen.filter fun r => r.1 == x.slot).length < 8 || (s.locks.getD x.slot none).isSome then s
  else note 0x0509 2 s.tsc.now srcSession 0 0 x.slot { s with
    refusals := seen.filter fun r => r.1 != x.slot
    locks := setAt s.locks x.slot (some (s.tsc.now + 10000000000)) }

/-- What a lingering session holds for its successor: status and event records (R321). -/
def Out.heldOver : Out → Bool
  | .cmdStatus _ | .event _ => true
  | _ => false

/-- What is held over, in messages that the new host accepts: event records batched for its MAXP (R318, R335). -/
def Session.rebatch (y : Session) : Out → List Out
  | .event rs => (chunks y.evtBatch rs.length rs).map .event
  | m => [m]

/-- RESUME: the new session takes over the records, tags, subscription and load of the lingering one. -/
def takeOver (old new : Nat) (s : State) : State :=
  match s.session old with
  | none => s
  | some x =>
    let bodies := ((s.unacked.filter fun u => u.dest == .session old).map (·.body) ++ x.waiting).filter Out.heldOver
    let s := ckpSessionEnd old s
    { s with
      cmds := s.cmds.map fun c => if c.sid == old then { c with sid := new } else c
      loads := s.loads.map fun l => if l.sid == old then { l with sid := new } else l
      unacked := s.unacked.filter fun u => u.dest != .session old
      waitReads := s.waitReads.filter fun w => w.who != .session old
      sessions := updateWhere (fun y => y.sid == new)
        (fun y => { y with waiting := bodies.flatMap y.rebatch, sub := x.sub, evtNext := x.evtNext }) (s.sessions.filter fun y => y.sid != old) }

/-- What A and Ks are computed over after their labels (R318, R319). -/
def Session.names (x : Session) : List Byte := x.nh ++ x.nm ++ beBytes 4 x.sid

/-- Ks (R319). -/
def Session.keyFrom (x : Session) (key : List Byte) : List Byte := (hmac384 key (ascii "EDGIL-SKEY" ++ x.names)).take 32

/-- The ICV of a message of a host with a payload (R315). -/
def hostIcv (h : Hdr) (cls : Nat) (ks payload : List Byte) : List Byte :=
  icvOf (some ks) ⟨cls, h.ack.map (·.toNat), h.retx, 0xFFFF, h.dst.toNat, h.chan.toNat, h.seq.toNat, payload.length⟩ payload

/-- A correct PROOF: the session opens (R319). -/
def openSession (h : Hdr) (x : Session) (key : List Byte) (s : State) : State :=
  let resumed := x.resume != 0 && s.resumable x.resume x.slot x.cls
  let body : Out := .accept x.sid (hmac384 key (ascii "EDGIL-ACPT" ++ x.names)) resumed
  let s := onSession x.sid (fun y => { y with
    phase := .open_, since := s.tsc.now, src := h.src, port := h.port
    ks := x.keyFrom key }) s
  let s := { s with unacked := s.unacked ++ [⟨.session x.sid, 0, body, s.tsc.now, s.tsc.now, 0⟩] }
  let s := emit (some h.port) (.session x.sid) (some 0) false body s
  let s := note 0x0505 0 s.tsc.now (srcIngress h.port) 0 0 x.sid s
  if resumed then evtPump x.sid (flushWaiting x.sid 256 (takeOver x.resume x.sid s)) else s

/-- PROOF, with P and its ICV, which is under Ks (R318, R319). -/
def execProof (h : Hdr) (p icv : List Byte) (s : State) : Host.Outcome State Fault Refusal :=
  done <| arrive h.t h.port (fun s =>
    let sid := h.chan.toNat
    if !s.forMe (.session sid) h.dst.toNat then dropMessage s
    else match s.session sid with
    | none =>
      match s.expired.find? fun e => e.1 == sid with
      | some (_, slot, nh) => reject h.port h.src slot 6 sid nh s
      | none => dropMessage s
    | some x =>
      if h.seq != 0 || p.length != 48 then dropMessage s
      else if x.phase != .pending then
        if icv == hostIcv h 0x03 x.ks p then sendAck (.session sid) x.chan.rxNext s else dropMessage s
      else match (s.keySlot x.slot).key with
        | none => refuseProof h.port h.src x s
        | some key =>
          if icv != hostIcv h 0x03 (x.keyFrom key) p || p != hmac384 key (ascii "EDGIL-OPEN" ++ x.proofBytes) then refuseProof h.port h.src x s
          else if 32 ≤ s.sessionsHeld && !(x.resume != 0 && s.resumable x.resume x.slot x.cls) then
            reject h.port h.src x.slot 3 sid x.nh s
          else openSession h x key s) s

/-- PROOF_RESERVATION_EXPIRE: 1 s after the reservation. -/
def execProofReservationExpire (sid : Nat) (s : State) : Host.Outcome State Fault Refusal :=
  done <|
    match s.session sid with
    | some x =>
      if x.phase == .pending then
        let s := tick (x.since + 1000000000) s
        { s with sessions := s.sessions.filter (fun y => y.sid != sid), expired := s.expired ++ [(sid, x.slot, x.nh)] }
      else s
    | none => s

/-- SLOT_LOCK_EXPIRE: 10 s after the lock. -/
def execSlotLockExpire (slot : Fin 8) (s : State) : Host.Outcome State Fault Refusal :=
  done <|
    match s.locks.getD slot none with
    | some e => let s := tick e s; { s with locks := setAt s.locks slot none }
    | none => s

end Sys2Proof.Machine
end

