-- ==== Sys2Proof/Machine/Spares.lean ====
section
/-! DEFINITION. Faults and spares (R343 to R363): cluster faults and their replay, substitution, memory repair, adders,
phases and clocks, the firmware watchdog and leaving service. -/

namespace Sys2Proof.Machine

/-! ## Clusters (R347 to R354, R407) -/

/-- The cluster stops: nothing it holds takes effect (R347). -/
def Cluster.halt (c : Cluster) : Cluster :=
  { c with
    ctxs := c.ctxs.map fun k => if k.cmd.isSome then { k with stall := .error } else k
    arrQ := []
    emits := []
    chainQ := []
    gate := []
    drnOpen := []
    replayQ := []
    pfs := c.pfs.map fun p => { p with active := false }
    stopped := true }

/-- Writes of a cluster that no memory controller has accepted are discarded (R347). -/
def dropWrites (x : Nat) (s : State) : State :=
  { s with writes := s.writes.filter fun w => !(w.cluster.any fun o => o.1 == x) }

/-- A command begun in the stitch is re-executed unless it ended by abort, overrun, PROGRAM_ERROR or discard. -/
def State.replays (s : State) (b : Begun) : Bool :=
  (s.cmds[b.cmd]?).any fun c => c.phase == .dispatched || c.phase == .ended .completed

/-- The replay cluster as it begins (R347, R348): counters from the copy, stores zero, the commands to re-execute. The
registers of what it last ran keep what they show (R145, R180). DESIGN CHOICE, UNSAFE (R177, log 84): a LCH_CNT_CLEAR
written earlier in the stitch is lost with the counters of the failed cluster. -/
def replayCluster (s : State) (old new : Cluster) (t : Nat) : Cluster :=
  let again := old.begun.filter s.replays
  { Cluster.reset .active old.logical with
    tap := new.tap
    colUsed := new.colUsed
    opNext := new.opNext
    cfg := new.cfg
    run := { StatRun.none with next := new.run.next, seqErr := new.run.seqErr }
    lastNamed := new.lastNamed
    ccw := new.ccw
    vlSet := new.vlSet
    drn := old.drnCopy
    drnCopy := old.drnCopy
    lch := old.lchCopy
    lchCopy := old.lchCopy
    t0Kib := new.t0Kib
    begun := again
    suppress := again.map fun b => (b.cmd, b.signals)
    replayQ := again.map fun b => (b.cmd, b.ctx)
    replayAt := t
    mxaErr := new.mxaErr
    lchErr := new.lchErr
    pmcErr := new.pmcErr
    busy := new.busy
    bubble := new.bubble
    fences := new.fences
    fenceCycles := new.fenceCycles
    chainBusy := new.chainBusy
    discards := new.discards
    issued := new.issued
    switches := new.switches
    conflicts := new.conflicts }

/-- SPARE and serving no number. -/
def Cluster.ready (c : Cluster) : Bool := c.state == .spare && c.logical.isNone

/-- The spare that a change concerns: one substituted, or a cluster that has failed. -/
def ClChange.takes (y : Nat) : ClChange → Bool
  | .subst z _ => z == y
  | .retire z _ => z == y
  | .vacate _ => false
  | .shed _ => false

/-- Cluster x has failed and changes at the next boundary. -/
def State.failed (s : State) (x : Nat) : Bool := s.spr.changes.any fun c => match c with
  | .retire z _ => z == x
  | _ => false

/-- The spare of R350: the lowest of the tree with PATH QUEUE, else the lowest with PATH TAP; not one already substituted,
nor one that has failed. -/
def State.spareFor (s : State) (x : Nat) : Option Nat :=
  let xs := (upTo 36).map fun i => 36 * (x / 36) + i
  let free := xs.filter fun y => (s.cl y).ready && !(s.spr.changes.any fun c => c.takes y)
  match free.find? fun y => !(s.cl y).tap with
  | some y => some y
  | none => free.head?

/-- What a failed cluster becomes at the next boundary: RETIRED, or a TAP spare after its first tile-queue fault (R350);
recorded (R377). -/
def retire (x code : Nat) (s : State) : State :=
  let tapped := code == 9 && !(s.cl x).tap
  onKept (fun k => if tapped then { k with taps := k.taps ++ [x] }
      else { k with retired := k.retired ++ [x], taps := k.taps.filter fun y => y != x })
    (onSpr (fun r => { r with changes := r.changes ++ [.retire x tapped] }) s)

/-- PG_CTRL of cluster x's five pages goes to cluster y, and reads EN 0, DRAIN 0 on x (R407). -/
def moveCtrl (x y : Nat) (s : State) : State :=
  forEach (upTo 5) (fun j s => setReg (clusterAddr x j 8) 0 (setReg (clusterAddr y j 8) (s.reg (clusterAddr x j 8)) s)) s

/-- Cluster y takes over the number of the failed cluster x and replays its stitch. -/
def takeover (x y code : Nat) (s : State) : State :=
  let old := s.cl x
  let t := s.tsc.now
  let s := onCl y (fun c => replayCluster s old c t) s
  let s := onCl x (fun c => { c.halt with logical := none, ctxs := List.replicate 3 Ctx.reset, begun := [], suppress := [], stopped := false }) s
  let s := moveCtrl x y (retire x code s)
  note 0x0601 1 t srcSpare 0 0 ((old.logical.getD 0) * 65536 + srcCluster y)
    (onSpr (fun r => { r with replays := sat32 (r.replays + 1) }) (onSth (fun h => { h with replayed := true }) s))

/-- The same cluster replays after a column is remapped. -/
def replayInPlace (x : Nat) (s : State) : State :=
  onSpr (fun r => { r with replays := sat32 (r.replays + 1) })
    (onSth (fun h => { h with replayed := true }) (onCl x (fun c => replayCluster s c c s.tsc.now) s))

/-- No replay: the cluster stops, and its number falls vacant at the boundary (R351, R354). -/
def loseCluster (x code : Nat) (s : State) : State :=
  retire x code (onSpr (fun r => { r with changes := r.changes ++ [.vacate x] }) (onCl x Cluster.halt s))

/-- A column is remapped onto the lowest spare column still ready (R21). -/
def remapColumn (x : Nat) (s : State) : State :=
  note 0x0604 1 s.tsc.now srcSpare 0 0 ((s.cl x).colUsed * 65536 + srcCluster x)
    (onCl x (fun c => { c with colUsed := c.colUsed + 1 }) s)

/-- A fault of codes 0x01 to 0x09 on a cluster that is not RETIRED. -/
def failCluster (x code : Nat) (s : State) : State :=
  let c := s.cl x
  let s := noteFault code (srcCluster x) s
  let column := decide (code ≤ 4) && decide (c.colUsed < 4)
  if s.failed x then s
  else if c.logical.isNone then
    if column then remapColumn x s
    else retire x code (onSpr (fun r => { r with changes := r.changes.filter fun k => !k.takes x }) s)
  else if c.state != .active then s
  else
    let s := dropWrites x s
    if column then
      let s := remapColumn x s
      if s.hostSpare then onCl x Cluster.halt s else replayInPlace x s
    else if s.hostSpare then loseCluster x code s
    else match s.spareFor x with
      | some y => takeover x y code s
      | none => note 0x0603 2 s.tsc.now srcSpare 0 0 (c.logical.getD 0) (loseCluster x code s)

/-- CLUSTER_FAULT: a RETIRED cluster produces none (R345). -/
def execClusterFault (t : Nat) (x : Fin 144) (code : Byte) (s : State) : Host.Outcome State Fault Refusal :=
  done <|
    if s.sec.boot != .ready || (s.cl x).state == .retired || code == 0 || 9 < code.toNat then s
    else failCluster x code.toNat (tick t s)

/-- SRAM_CORRECT: corrected in place, reported nowhere (R345). -/
def execSramCorrect (t : Nat) (place : SramAt) (s : State) : Host.Outcome State Fault Refusal :=
  done <|
    match place with
    | .cluster x => if s.sec.boot != .ready || (s.cl x).state == .retired then s else tick t s
    | .hub => if s.sec.boot == .ready then tick t s else s

/-! ### Substitution by the host (R354, R372) -/

/-- A logical number that a substitution already names. -/
def ClChange.numbers (l : Nat) : ClChange → Bool
  | .subst _ k => k == l
  | _ => false

/-- A write of one to GO of SPR_SUBST: whether it is accepted, and the state after. -/
def substitute (logical tree index : Nat) (s : State) : Bool × State :=
  let x := 36 * tree + index
  if !s.hostSpare || (s.physOf logical).isSome || decide (127 < logical) || decide (35 < index) || logical / 32 != tree
      || !(s.cl x).ready
      || s.spr.changes.any (fun c => c.takes x || c.numbers logical) then (false, s)
  else (true, onSpr (fun r => { r with changes := r.changes ++ [.subst x logical] }) s)

/-- One change takes effect at a boundary. DESIGN CHOICE (log entry 73): a cluster whose number is vacated under R361, which
gives it no STATE, is RETIRED, and stays so across reset with its number vacant (R377). -/
def applyChange (c : ClChange) (s : State) : State :=
  match c with
  | .shed l =>
    match s.physOf l with
    | some x =>
      onKept (fun k => { k with vacated := k.vacated ++ [(l, x)], taps := k.taps.filter fun y => y != x })
        (onSpr (fun r => { r with holders := (r.holders.filter fun h => h.1 != l) ++ [(l, x)] })
          (onCl x (fun k => { k with logical := none, state := .retired }) s))
    | none => s
  | .vacate x =>
    match (s.cl x).logical with
    | some l =>
      onSpr (fun r => { r with holders := (r.holders.filter fun h => h.1 != l) ++ [(l, x)] })
        (onCl x (fun k => { k with logical := none, state := if k.state == .active then .retired else k.state }) s)
    | none => s
  | .retire x tapped =>
    onCl x (fun k => { k with state := if tapped then .spare else .retired, tap := k.tap || tapped }) s
  | .subst x l =>
    let s := match s.spr.holders.find? fun h => h.1 == l with
      | some (_, y) => moveCtrl y x s
      | none => s
    onCl x (fun k => { k with state := .active, logical := some l })
      (onSpr (fun r => { r with holders := r.holders.filter fun h => h.1 != l }) s)

/-! ## Memory (R355 to R358) -/

/-- A code's fault number by the controller that finds data beyond correction. -/
def ueCode (src : Nat) : Nat := if src < 0x0B0 then 0x12 else if src < 0x0C0 then 0x14 else 0x15

/-- SPR_MEM_UE: a unit of a mapped page beyond correction is poisoned; a codeword of flash makes its LIBRARY page LOST. -/
def execSprMemUe (t unit : Nat) (source : BitVec 12) (s : State) : Host.Outcome State Fault Refusal :=
  done <|
    let src := source.toNat
    let p := s.page (unit / 65536)
    if s.clockless || p.kind == .unmapped || decide (src < 0x0A8) || decide (0x0D0 ≤ src) then s
    else if 0x0C0 ≤ src then
      if p.kind != .library || p.lost then s else losePage (unit / 65536) src (noteFault 0x15 src (tick t s))
    else if s.poison.contains unit then s
    else poisonNote unit src (noteFault (ueCode src) src (tick t s))

def State.hbm (s : State) (h : Nat) : Hbm := s.spr.hbm.getD h Hbm.reset
def onHbm (h : Nat) (f : Hbm → Hbm) (s : State) : State := onSpr (fun r => { r with hbm := setAt r.hbm h (f (r.hbm.getD h Hbm.reset)) }) s
def State.ddr (s : State) (d : Nat) : Ddr := s.spr.ddr.getD d Ddr.reset
def onDdr (d : Nat) (f : Ddr → Ddr) (s : State) : State := onSpr (fun r => { r with ddr := setAt r.ddr d (f (r.ddr.getD d Ddr.reset)) }) s

/-- The repair table in the boot partition follows the stacks (R356). -/
def keepRepairs (s : State) : State :=
  onKept (fun k => { k with hbmRows := s.spr.hbm.map (·.rows), hbmSpared := s.spr.hbm.map (·.spared) }) s

/-- The distinct places (accesses, rows or bursts) with a correctable error in the 24 hours up to t (R356, R357). -/
def erringWithin (t : Nat) (seen : List (Nat × Nat)) : Nat :=
  (((seen.filter fun e => decide (e.2 ≤ t) && decide (t ≤ e.2 + 86400000000000)).map (·.1)).eraseDups).length

/-- The corrected errors among those an operand names, by a stamp: each has been corrected, and is counted once, by its own
stamp, however often it is named (R372; log entry 53). -/
def seenCe (t : Nat) (seen : List (Nat × Nat)) (ceAt : List Nat) : List Nat :=
  ceAt ++ (((seen.filter fun e => decide (e.2 ≤ t)).map (·.2)).eraseDups.filter fun e => !ceAt.contains e)

/-- HBM_ROW_REPAIR: a row with correctable errors at three distinct accesses within 24 hours takes one of the
pseudo-channel's 64 spare rows. The operand gives the row's accesses with errors, each with its stamp (R356). -/
def execHbmRowRepair (t : Nat) (stack : Fin 8) (pch : PchSeen) (s : State) : Host.Outcome State Fault Refusal :=
  done <|
    let h := s.hbm stack
    let used := readAt 0 h.rows pch.pch
    if !h.inserv || decide (erringWithin t pch.seen < 3) then s
    else
      let s := noteFault 0x10 (srcHbm stack) (onHbm stack (fun h => { h with ceAt := seenCe t pch.seen h.ceAt }) (tick t s))
      if 64 ≤ used then s
      else note 0x0606 0 s.tsc.now srcSpare 0 0 (256 * stack.val + pch.pch.val)
        (keepRepairs (onHbm stack (fun h => { h with rows := writeAt 0 h.rows pch.pch (used + 1) }) s))

/-- HBM_PCH_SPARE: a pseudo-channel that has used 48 spare rows, or 16 of whose rows have had correctable errors within 24
hours, moves to one of the stack's two spares, whose rows are all free; with none left the stack is evacuated (R361).
The operand gives the rows with errors, each with its stamp (R356). -/
def execHbmPchSpare (t : Nat) (stack : Fin 8) (pch : PchSeen) (s : State) : Host.Outcome State Fault Refusal :=
  done <|
    let h := s.hbm stack
    if !h.inserv || (decide (readAt 0 h.rows pch.pch < 48) && decide (erringWithin t pch.seen < 16)) then s
    else
      let s := noteFault 0x11 (srcHbm stack) (onHbm stack (fun h => { h with ceAt := seenCe t pch.seen h.ceAt }) (tick t s))
      if h.leaving then s
      else if h.spared.length < 2 then
        note 0x0607 1 s.tsc.now srcSpare 0 0 (256 * stack.val + pch.pch.val)
          (keepRepairs (onHbm stack (fun h => { h with rows := writeAt 0 h.rows pch.pch 0, spared := h.spared ++ [pch.pch.val] }) s))
      else onHbm stack (fun h => { h with leaving := true }) s

/-- The bursts a device has been seen to fail in by t, where the rank has no erasure left: each unit of a mapped page is
poisoned (R355, R357; log entry 53). -/
def poisonBursts (t src : Nat) (seen : List (Nat × Nat)) (s : State) : State :=
  forEach ((seen.filter fun e => decide (e.2 ≤ t)).map (·.1)) (fun u s =>
    if (s.page (u / 65536)).kind == .unmapped || s.poison.contains u then s else poisonNote u src (noteFault 0x14 src s)) s

/-- DDR_ERASE: a device with correctable errors in 64 distinct bursts within 24 hours takes the rank's one erasure; a second
failing device, whose first errors are poisoned units, evacuates the channel (R357, R361). The operand gives the bursts
with errors, each with its stamp. -/
def execDdrErase (t : Nat) (channel : Fin 16) (rank : Fin 2) (device : DeviceSeen) (s : State) :
    Host.Outcome State Fault Refusal :=
  done <|
    let d := s.ddr channel
    let was := if rank = 0 then d.r0 else d.r1
    let src := srcDdr channel
    if !d.inserv || was == some device.device.val || decide (erringWithin t device.seen < if was.isSome then 1 else 64) then s
    else if was.isSome then
      onDdr channel (fun d => { d with leaving := true }) (noteFault 0x13 src (poisonBursts t src device.seen (tick t s)))
    else
      let s := noteFault 0x13 src (onDdr channel (fun d => { d with ceAt := seenCe t device.seen d.ceAt }) (tick t s))
      note 0x0608 1 s.tsc.now srcSpare 0 0 (256 * device.device.val + 16 * rank.val + channel.val)
        (onDdr channel (fun d => if rank = 0 then { d with r0 := some device.device.val } else { d with r1 := some device.device.val }) s)

/-- The controller that holds a unit of T1 or T2: the stack its page lies on, or a channel by the free interleaving of log
entry 23. -/
def State.unitSource (s : State) (u : Nat) : Nat :=
  let p := s.page (u / 65536)
  if !p.inTierT .t1 && p.inTierT .t2 then srcDdr (Config.channelOf u % 16) else srcHbm p.stack

/-- A correctable error is counted by its controller (R372). -/
def countCe (src : Nat) (s : State) : State :=
  if src < 0x0B0 then onHbm (src - 0x0A8) (fun h => { h with ceAt := h.ceAt ++ [s.tsc.now] }) s
  else onDdr (src - 0x0B0) (fun d => { d with ceAt := d.ceAt ++ [s.tsc.now] }) s

/-- SCRUB_READ (R358): corrections change no data; a unit beyond correction is poisoned, a cluster word beyond correction is
a fault of code 0x08. -/
def execScrubRead (t : Nat) (place : ScrubAt) (found : ScrubFound) (s : State) : Host.Outcome State Fault Refusal :=
  done <|
    let fail := fun (x : Fin 144) => match found with
      | .uncorrectable => failCluster x 8 (tick t s)
      | _ => tick t s
    if s.clockless then s else match place with
    | .device u =>
      if (s.page (u / 65536)).kind == .unmapped then s
      else
        let src := s.unitSource u
        match found with
        | .clean => tick t s
        | .corrected _ => countCe src (tick t s)
        | .uncorrectable => if s.poison.contains u then s else poisonNote u src (noteFault (ueCode src) src (tick t s))
    | .tileStore x _ | .outputStore x _ | .vectorRegs x _ =>
      if s.sec.boot != .ready || (s.cl x).state == .retired then s else fail x
    | .hubCache w =>
      let u := Config.cacheUnit w
      let p := s.page (u / 65536)
      match found with
      | .uncorrectable =>
        if p.kind != .unmapped && (p.home == .t0 || p.copies.contains .t0) && !s.poison.contains u
        then poisonNote u srcFirmware (tick t s) else tick t s
      | _ => tick t s

/-! ## Leaving service (R363) -/

/-- SPR_FATAL: nothing more is admitted; PGOOD takes the 4 Hz wave (R435), but holds the pattern of a failed boot until the
next reset (R382). -/
def leaveService (code src : Nat) (s : State) : State :=
  if s.spr.fatal then s
  else note 0x060F 3 s.tsc.now src 0 0 code (onPwr (fun p => { p with pgood := if s.sec.boot == .fail then 2 else 3 }) (onSpr (fun r => { r with fatal := true }) s))

/-- HUB_LOGIC_FAULT (code 0x1C). -/
def execHubLogicFault (t : Nat) (s : State) : Host.Outcome State Fault Refusal :=
  done <|
    if s.sec.boot != .ready || s.spr.fatal then s else leaveService 0x1C srcHub (noteFault 0x1C srcHub (tick t s))

/-! ## Adders, phases, clocks (R359, R360, R361) -/

/-- GIRTH_LANE_FAULT: a spare lane comes in; with none left the port carries no reductions. -/
def execGirthLaneFault (t : Nat) (port : Fin 8) (s : State) : Host.Outcome State Fault Refusal :=
  done <|
    let p := s.port port
    if s.sec.boot != .ready || p.lanes == 0 then s
    else
      let s := noteFault 0x16 (srcAdder port) (tick t s)
      if 0 < p.spareLanes then
        note 0x060B 1 s.tsc.now srcSpare 0 0 (16 * (p.spareLanes - 1) + port.val)
          (onPort port (fun q => { q with spareLanes := q.spareLanes - 1 }) s)
      else onPort port (fun q => { q with lanes := q.lanes - 1 }) s

/-- BRIDGE_ADDER_FAULT: the sending port controllers perform the bridge's additions; the bits are unchanged. -/
def execBridgeAdderFault (t : Nat) (bridge : Fin 2) (s : State) : Host.Outcome State Fault Refusal :=
  done <|
    if s.sec.boot != .ready || s.spr.bridgeMoved.getD bridge false then s
    else onSpr (fun r => { r with bridgeMoved := setAt r.bridgeMoved bridge true }) (noteFault 0x17 srcFirmware (tick t s))

/-- Logical number l stands on an active cluster and is not already to fall vacant. -/
def State.staysHeld (s : State) (l : Nat) : Bool :=
  !(s.spr.changes.contains (.shed l)) && (s.physOf l).any fun x =>
    (s.cl x).state == .active && !(s.spr.changes.contains (.vacate x))

/-- The eight highest logical numbers of a tree's active clusters that are not already to fall vacant (R361). -/
def State.vacateEight (s : State) (tree : Nat) : List Nat :=
  (((upTo 32).map fun i => 32 * tree + (31 - i)).filter s.staysHeld).take 8

/-- A change that the next monitor update finds and records (R439). -/
def findLater (code sev arg : Nat) (s : State) : State := onSpr (fun r => { r with found := r.found ++ [(code, sev, arg)] }) s

/-- The records of what a monitor update finds, at its stamp (R438, R439). -/
def recordFound (s : State) : State :=
  forEach s.spr.found (fun e s => note e.1 e.2.1 s.tsc.now srcPower 0 0 e.2.2 s) (onSpr (fun r => { r with found := [] }) s)

/-- PHASE_SHED of a tree rail (0 to 3) or the hub rail (4), whenever the rails are up (R345, R360, R425). -/
def execPhaseShed (t : Nat) (rail : Fin 5) (s : State) : Host.Outcome State Fault Refusal :=
  done <|
    if s.clockless then s
    else
      let left := s.spr.phases.getD rail 0
      let s := findLater 0x060C 1 (16 * (left - 1) + rail.val) (noteFault 0x19 srcPower (tick t s))
      if 0 < left then onSpr (fun r => { r with phases := setAt r.phases rail (left - 1) }) s
      else if rail.val == 4 then leaveService 0x19 srcPower s
      else onSpr (fun r => { r with changes := r.changes ++ (s.vacateEight rail).map ClChange.shed }) s

/-- PLL_LOSS: the standby takes over, once, whenever the rails are up. -/
def execPllLoss (t : Nat) (s : State) : Host.Outcome State Fault Refusal :=
  done <|
    if s.clockless then s
    else
      let s := noteFault 0x1A srcPower (tick t s)
      if s.spr.standbyOk then
        let n := 1 - s.spr.pll
        findLater 0x060D 2 n (onSpr (fun r => { r with pll := n, standbyOk := false }) s)
      else leaveService 0x1A srcPower s

/-! ## Firmware (R345, R384, R419) -/

/-- FIRMWARE_WATCHDOG: the PTP servo holds over, and the restart begins, from the image in the hub cache or, where that has changed, from the slot booted
after the check of R379. -/
def execFirmwareWatchdog (t : Nat) (cacheIntact : Bool) (s : State) : Host.Outcome State Fault Refusal :=
  done <|
    if s.sec.boot != .ready || s.fwDown.isSome || !(cacheIntact || s.kept.mayBoot (s.kept.image s.sec.booted)) then s
    else loseReference { noteFault 0x1B srcFirmware (tick t s) with fwDown := some t }

/-- The restart is over: counted, measured, reported; event delivery goes on. -/
def firmwareBack (s : State) : State :=
  let n := sat32 (s.spr.fwRestarts + 1)
  let s := onSpr (fun r => { r with fwRestarts := n }) { s with fwDown := none }
  evtPumpAll (note 0x060E 1 s.tsc.now srcSpare 0 0 n (extendM 3 8 (sha384 (leBytes 4 n)) s))

end Sys2Proof.Machine
end

