-- ==== Sys2Proof/Machine/Boot.lean ====
section
/-! DEFINITION. Resets and boot (R374 to R389), and the power states, sequencing and limits (R423 to R437). -/

namespace Sys2Proof.Machine

/-! ## Resets (R374, R376) -/

/-- A page across a reset: LIBRARY pages stay as they stood, a pinned one with its copy (R213, R444), others with none; every
other page is UNMAPPED. -/
def Page.kept (p : Page) : Page :=
  if p.kind == .library && !p.loading then
    { Page.unmapped with kind := .library, hint := p.hint, home := p.home, lost := p.lost, copies := p.pinned
                         stack := p.stack }
  else Page.unmapped

def keptPages (m : List (Nat × Page)) : List (Nat × Page) :=
  (m.map fun e => (e.1, e.2.kept)).filter fun e => e.2 != Page.unmapped

/-- The blocks of the pages that stay; the blocks of a load that was under way are freed. -/
def keptFlash (s : State) : Ftl :=
  (forEach ((s.ftl.maps.map (·.1)).filter fun g => (s.page g).kept == Page.unmapped) freeFlash s).ftl

/-- The bytes of the pages that stay. -/
def keptBytes (m : List (Nat × Page)) (d : List (Nat × Byte)) : List (Nat × Byte) :=
  d.filter fun e => (readAt Page.unmapped m (pageOf e.1)).kind == .library

/-- The state while a reset is held (R376): everything at reset but fuses, boot partition, LIBRARY pages, flash wear records,
cage modules, and the model's own queue, free values and record of frames. A staged key store takes effect. -/
def State.afterReset (s : State) (cause : Nat) : State :=
  let pages := keptPages s.pages
  { State.reset with
    pending := s.pending
    free := s.free
    tx := s.tx
    pages := pages
    dev := keptBytes pages s.dev
    ftl := { keptFlash s with scans := [], refreshes := 0 }
    ports := s.ports.map fun p => { Port.reset with identity := p.identity, supply := p.supply }
    kept := { s.kept with store := if s.kept.staged.isSome then s.kept.staged else s.kept.store, staged := none }
    sec := { Sec.reset with cause := cause }
    pwr := { Pwr.reset with pwrEn := s.pwr.pwrEn } }

/-- RESET_BEGIN: 100 µs after the response to SEC_RESET.GO; none is due while that response is still held (R375, R419). -/
def execResetBegin (s : State) : Host.Outcome State Fault Refusal :=
  done <|
    match s.sec.resetAt with
    | some t => if t == 0 then s else s.afterReset 3
    | none => s

/-- SIDEBAND_RESET: RESET_N low for 10 µs. In OFF and during power-up it has no effect (R431). -/
def execSidebandReset (_t : Nat) (s : State) : Host.Outcome State Fault Refusal :=
  done <| if s.pwr.state == .off || s.pwr.state == .rising then s else s.afterReset 2

/-! ## The boot ROM (R381, R382, R387 to R389) -/

/-- SHA-384 over the ROM version word, the key hashes, the revocation bits, the counter and the lifecycle code; the last
three one byte each (log entry 20). -/
def State.romDigest (s : State) : List Byte :=
  sha384 (padTo 4 0 Config.romVersion ++ (upTo 4).flatMap (fun i => padTo 48 0 (Config.keyHash i))
    ++ leBytes 1 s.kept.revoked ++ leBytes 1 s.kept.counter ++ leBytes 1 s.kept.lifecycle)

/-- RESET_RELEASE: the ROM takes the first valid image, or boot fails. -/
def execResetRelease (s : State) : Host.Outcome State Fault Refusal :=
  done <|
    if s.pwr.state != .on || !s.pwr.inReset then s
    else
      let s := onTsc (fun c => { c with now := 0 }) (onPwr (fun p => { p with inReset := false }) s)
      let slot := s.kept.bootSlot
      let s := onKept Kept.checked (extendM 0 1 s.romDigest s)
      match slot with
      | none => onPwr (fun p => { p with pgood := 2 }) (onSec (fun c => { c with boot := .fail }) s)
      | some n =>
        let i := s.kept.image n
        let cdi := compoundValue (s.sec.m.getD 0 zero48) (s.sec.m.getD 1 zero48)
        let s := deriveKeys cdi (extendM 1 2 i.digest s)
        onKept (fun k => { k with boots := sat32 (k.boots + 1) })
          (onSec (fun c => { c with
            boot := .init, booted := n, fallback := n != s.kept.pref, fwver := i.version, svn := i.svn
            revoke := i.revoke, keyidx := i.keyidx, imgDigest := i.digest }) s)

/-! ## Firmware as boot code (R377, R383, R392) -/

/-- A recorded retirement, or change to a TAP spare, applied as a takeover (R377). -/
def applyRecord (x : Nat) (s : State) : State :=
  let old := s.cl x
  let tapped := s.kept.taps.contains x
  let s := match old.logical, s.spareFor x with
    | some l, some y => moveCtrl x y (onCl y (fun c => { c with state := .active, logical := some l }) s)
    | some l, none => onSpr (fun r => { r with holders := r.holders ++ [(l, x)] }) s
    | none, _ => s
  onCl x (fun c => { c with state := if tapped then .spare else .retired, logical := none, tap := tapped }) s

/-- A number vacated for want of phases is vacant again, and the cluster that held it RETIRED (R361, R377; log entry 73): no
takeover brings the number back. -/
def applyVacated (l x : Nat) (s : State) : State :=
  let s := match s.physOf l with
    | some y => onCl y (fun c => { c with logical := none }) s
    | none => s
  onSpr (fun r => { r with holders := r.holders ++ [(l, x)] }) (onCl x (fun c => { c with logical := none, state := .retired }) s)

/-- The retirement record, in order of physical index, after the numbers vacated for want of phases. -/
def applyRecords (s : State) : State :=
  forEach ((upTo 144).filter fun x => s.kept.retired.contains x || s.kept.taps.contains x) applyRecord
    (forEach s.kept.vacated (fun v => applyVacated v.1 v.2) s)

/-- The LOST pages' units are poisoned again (R236, R376). -/
def poisonLost (s : State) : State :=
  forEach ((s.pages.filter fun e => e.2.lost).map (·.1)) (fun g s =>
    forEach ((upTo 65536).map (· + g * 65536)) (fun u s => poisonNote u (srcFlash 0) s) s) s

/-- The protection map from the key store, or from the default store (R392); without Kst no store is read. -/
def loadStore (ok : Bool) (s : State) : State :=
  match (if ok && s.sec.kst.isSome then s.kept.store else none) with
  | some k => onSec (fun c => { c with map := k }) s
  | none =>
    note 0x0704 2 s.tsc.now srcSecurity 0 0 0
      (onKept (fun k => { k with store := some s.defaultStore }) (onSec (fun c => { c with map := s.defaultStore }) s))

/-- The rate of a fitted module, in MT/s (R239). -/
def ddrRate (rates d : Nat) : Nat := 6400 + 800 * bits rates (2 * d) 2

/-- The DDR channels after training: all at the highest rate that every fitted module supports, each with the capacity of
the smallest, those that fail among them; a channel whose module is missing or fails is out of service (R239). -/
def trainDdr (fitted work small rates : Nat) : List Ddr :=
  let fit := (upTo 16).filter fun d => bit fitted d
  let rate := fit.foldl (fun r d => min r (ddrRate rates d)) 8800
  let gib := if fit.any fun d => bit small d then 64 else 128
  (upTo 16).map fun d => { Ddr.reset with inserv := bit fitted d && bit work d, gib := gib, rate := rate }

/-- A pinned copy that has stayed through a reset lies on a stack that works (R212, R213; log entry 23). -/
def restackKept (s : State) : State :=
  { s with pages := s.pages.map fun e => (e.1,
      if e.2.inTierT .t1 && !s.room.serves.contains e.2.stack
      then { e.2 with stack := s.room.stack s.pages e.1 (hintTree e.2.hint) } else e.2) }

/-- FIRMWARE_BOOT: memories trained (the stacks of `hbmStacks` work), the record applied, the key store read (`keyStoreOk` when it
authenticates), M2, the lock, READY. -/
def execFirmwareBoot (t : Nat) (hbmStacks : BitVec 8) (channels : Fitted) (keyStoreOk : Bool) (s : State) :
    Host.Outcome State Fault Refusal :=
  done <|
    if s.sec.boot != .init then s
    else
      let s := tick t s
      let s := onSpr (fun r => { r with
        hbm := (upTo 8).map fun h => { Hbm.reset with
          inserv := bit hbmStacks.toNat h, rows := s.kept.hbmRows.getD h [], spared := s.kept.hbmSpared.getD h [] }
        ddr := trainDdr channels.fitted.toNat channels.work.toNat channels.small.toNat channels.rates.toNat }) s
      let s := loadStore keyStoreOk (poisonLost (applyRecords (restackKept s)))
      let s := extendM 2 3 s.mapDigest s
      let s := onSec (fun c => { c with lock := true, boot := .ready }) s
      let s := note 0x0700 0 s.tsc.now srcFirmware 0 0 (s.sec.booted * 2 ^ 30 + s.sec.svn) s
      if s.sec.fallback then note 0x0701 1 s.tsc.now srcFirmware 0 0 s.kept.pref s else s

/-! ## Power states (R423 to R434) -/

/-- OFF: nothing of the state is kept but what R376 keeps in fuses and flash (R430). -/
def State.enterOff (s : State) (pwrEn needCycle : Bool) : State :=
  let r := s.afterReset 1
  { r with
    ports := r.ports.map fun p => { p with supply := true }
    pwr := { Pwr.reset with state := .off, rail := 0, pwrEn := pwrEn, needCycle := needCycle, pgood := 0 } }

/-- SENSE_MATE: the conditions of R431 for leaving OFF; `restored` when PWR_EN has been cycled or input removed and restored. -/
def execSenseMate (_t : Nat) (pwrEn : Bool) (volt : BitVec 16) (restored : Bool) (s : State) : Host.Outcome State Fault Refusal :=
  done <|
    if s.pwr.state != .off then s
    else if pwrEn && decide (6000 ≤ volt.toNat) && decide (volt.toNat ≤ 9000) && (!s.pwr.needCycle || restored) then
      onPwr (fun p => { p with state := .rising, rail := 0, pwrEn := true, needCycle := false }) s
    else onPwr (fun p => { p with pwrEn := pwrEn }) s

/-- SENSE_PART (R423). -/
def execSensePart (_t : Nat) (s : State) : Host.Outcome State Fault Refusal :=
  done <| if s.pwr.state == .off then s else s.enterOff s.pwr.pwrEn false

/-- PWR_EN_FALL (R431). -/
def execPwrEnFall (_t : Nat) (s : State) : Host.Outcome State Fault Refusal :=
  done <|
    if s.pwr.state == .off then onPwr (fun p => { p with pwrEn := false }) s
    else s.enterOff false false

/-- INPUT_OUT_OF_RANGE (R424). -/
def execInputOutOfRange (_t : Nat) (s : State) : Host.Outcome State Fault Refusal :=
  done <| if s.pwr.state == .off then s else s.enterOff s.pwr.pwrEn false

/-- RAIL_UP: the next step of R434; after the last PGOOD is high and the reset is held. -/
def execRailUp (_t : Nat) (s : State) : Host.Outcome State Fault Refusal :=
  done <|
    if s.pwr.state != .rising then s
    else if s.pwr.rail + 1 < 11 then onPwr (fun p => { p with rail := p.rail + 1 }) s
    else onPwr (fun p => { p with rail := 11, state := .on, pgood := 1, inReset := true }) s

/-- RAIL_TIMEOUT: OFF until PWR_EN is cycled. -/
def execRailTimeout (_t : Nat) (s : State) : Host.Outcome State Fault Refusal :=
  done <| if s.pwr.state != .rising then s else s.enterOff s.pwr.pwrEn true

/-- LEAK_DETECTED (R437). -/
def execLeakDetected (_t : Nat) (s : State) : Host.Outcome State Fault Refusal :=
  done <| if s.pwr.state == .off then s else s.enterOff s.pwr.pwrEn false

/-- WARN_C of PWR_THERM. -/
def State.warnC (s : State) : Nat := bits (s.reg 0xE0138) 0 8

/-- The warnings of R437 as the bits of PWR_ALARM. -/
def State.warnings (s : State) (m : Measure) : Nat :=
  b2n (decide (s.warnC < m.junction.toNat)) + 2 * b2n (decide (45 < m.inlet.toNat)) + 4 * b2n (decide (m.flow.toNat < 300))

/-- The trips of R437. -/
def measureTrips (m : Measure) : Bool :=
  decide (105 < m.junction.toNat) || (decide (52 < m.inlet.toNat) && decide (1000 < m.inletHotMs))
    || (decide (m.flow.toNat < 200) && decide (1000 < m.flowLowMs))

/-- MONITOR_UPDATE: trips, whenever the module is powered (R431); with the hub running, measurements, warnings, and the
records of what the update finds (R437 to R439). -/
def execMonitorUpdate (t : Nat) (m : Measure) (s : State) : Host.Outcome State Fault Refusal :=
  done <|
    if s.pwr.state == .off then s
    else if measureTrips m then s.enterOff s.pwr.pwrEn false
    else if s.clockless then s
    else
      let w := s.warnings m
      recordFound (onPwr (fun p => { p with
        meas := m, energy := p.energy + m.joules, alarm := p.alarm ||| w, alert := w != 0 }) (tick t s))

/-- TREES_READY: the trees are back at voltage and clock, so that the ON boundary is known, and what waits is placed in the
stitch it begins or a later one (R433). -/
def execTreesReady (t : Nat) (s : State) : Host.Outcome State Fault Refusal :=
  done <|
    if s.pwr.state == .idle && s.pwr.waking && !s.pwr.treesReady
    then offerHeld (onPwr (fun p => { p with treesReady := true }) (tick t s)) else s

/-- What R432 asks of a write of REQ IDLE. -/
def State.mayIdle (s : State) : Bool :=
  s.cmds.all (fun c => !c.live)
    && (upTo 16).all (fun n => !s.trnOn n && !(s.gcfg n).on && !bit (s.reg (schAddr n 0x18)) 0)
    && !ckpBusy s.ckp.phase && (s.pages.all fun e => e.2.kind != .lent && e.2.lentOut.isEmpty) && s.loads.isEmpty

/-- A write of PWR_CTRL.REQ: whether it is accepted, and the state after (R431 to R433). -/
def powerRequest (req : Nat) (s : State) : Bool × State :=
  match req with
  | 1 => (true, if s.pwr.state == .idle && !s.pwr.waking then onPwr (fun p => { p with waking := true, wokeAt := s.tsc.now }) s else s)
  | 2 =>
    if s.pwr.state == .idle then (true, s)
    else if s.mayIdle then (true, onPwr (fun p => { p with idlePend := true }) s)
    else (false, s)
  | 3 => (true, s.enterOff s.pwr.pwrEn true)
  | _ => (true, s)

end Sys2Proof.Machine
end

