-- ==== Sys2Proof/Machine/Girth.lean ====
section
/-! DEFINITION. Reduction messages as they arrive, the time limits of an instance and of the verdict, and the writes that
enable a group or give a host's verdict (R276 to R302, R336). -/

namespace Sys2Proof.Machine

/-! ## Messages (R289 to R295, R336) -/

/-- The rank of the final module (R277). -/
def GCfg.finalRank (c : GCfg) : Nat := (c.teams - 1) * c.teamsz

/-- A message dropped by the engine. -/
def countDropped (s : State) : State := { s with grtDropped := sat32 (s.grtDropped + 1) }

/-- A message that breaks the layout of R336 (log entry 16). -/
def countMalformed (s : State) : State := { s with drops := sat32 (s.drops + 1) }

/-- A message for an operand already taken as empty (R289). -/
def dropLate (e rank job : Nat) (s : State) : State := note 0x0403 0 s.tsc.now srcFirmware job 0 (e * 65536 + rank) (countDropped s)

/-- Find the group that serves a message's job and the sender's rank in it (R294). -/
def withRank (n : InstName) (m : Nat) (f : Nat → GCfg → Nat → State → State) (s : State) : State :=
  let job := n.job.toNat
  match s.groupOf job with
  | none => note 0x0404 1 s.tsc.now srcFirmware job 0 job (countDropped s)
  | some g =>
    let c := s.gcfg g
    let e := n.entry.toNat
    match s.rankOf c m with
    | some r => if (e == 0xFFF || decide (e < c.entries)) && r != c.rank then f g c r s else countMalformed s
    | none => countMalformed s

/-- An instance whose life here is over, for a sender whose START it has had: it gives way to a new one of the same name (K is
modulo 65,536). -/
def Inst.past (i : Inst) (r : Nat) : Bool := i.triggered && i.ended.isSome && i.operands.any fun o => o.rank == r && o.start.isSome

/-- The second START of an operand whose module had its own contribution left out at D + GRACE and has then triggered (R289): it
names the instance that has ended here, and no new one. -/
def Inst.repeats (i : Inst) (r : Nat) (x : RedStart) : Bool :=
  i.ended.isSome && x.dec == 2 && x.dlStitch != 0 && i.operands.any fun o => o.rank == r && o.start == some x && !o.again

def renewInst (g e k st r : Nat) (s : State) : State :=
  ensureInst g e k st (onGroup g (fun x => { x with insts := x.insts.filter fun i => !(i.named e k st && i.past r) }) s)

def onOperand (g e k st r : Nat) (f : Operand → Operand) (s : State) : State :=
  onInst g e k st (fun i => { i with operands := updateWhere (fun o => o.rank == r) f i.operands }) s

/-- RED_START from module m. -/
def redStart (m : Nat) (x : RedStart) : State → State :=
  withRank x.name m fun g c r s =>
    let e := x.name.entry.toNat
    let k := x.name.k.toNat
    let st := x.name.step.toNat
    if ((s.group g).inst e k st).any fun i => i.repeats r x then onOperand g e k st r (fun o => { o with again := true }) s
    else
    let s := renewInst g e k st r s
    match (s.group g).inst e k st with
    | none => s
    | some i =>
      match i.operands.find? fun o => o.rank == r with
      | none => countMalformed s
      | some o =>
        if o.empty then dropLate e r c.job s
        else if i.ended.isSome || o.start.isSome then s
        else
          let now := s.tsc.now
          let s := onOperand g e k st r (fun o => { o with start := some x, startAt := now }) s
          let s := onInst g e k st (fun i => { i with
            firstStart := some (i.firstStart.getD now)
            dlNs := if i.triggered then i.dlNs else x.dlNs.toNat
            dlStitch := if i.triggered then i.dlStitch else x.dlStitch.toNat }) s
          advanceAny g e k st s

/-- The elements a RED_DATA message carries. -/
def redValues (d : RedData) (op : Nat) : List Nat :=
  (upTo d.count.toNat).map fun j => ofLE ((d.elems.drop (opBytes op * j)).take (opBytes op))

/-- Elements of a final or BCAST shard are held. -/
def holdElems (off : Nat) (vs : List Nat) (i : Inst) : Inst :=
  { i with shards := i.shards ++ (((upTo vs.length).map (· + off)).zip vs).filter fun p => !(i.shards.any fun q => q.1 == p.1) }

/-- A BCAST shard that is now whole is written to RESULT (R293). -/
def writeBcast (g e k st owner : Nat) (s : State) : State :=
  match (s.group g).inst e k st with
  | none => s
  | some i =>
    let c := s.gcfg g
    let (a, b) := shardOf i.nelem c.nrank owner
    if i.bcastHolds c owner && s.instResultOk i then hubWrite (i.result + 4 * a) (i.shardBytes a (b - a)) s else s

/-- RED_DATA from module m. -/
def redData (m : Nat) (x : RedData) : State → State :=
  withRank x.name m fun g c r s =>
    let e := x.name.entry.toNat
    let k := x.name.k.toNat
    let st := x.name.step.toNat
    let off := x.offset.toNat
    let s := ensureInst g e k st s
    match (s.group g).inst e k st with
    | none => s
    | some i =>
      let n := x.count.toNat
      let owner := x.shard.toNat
      let (a, b) := if owner < c.nrank then shardOf i.nelem c.nrank owner else (0, 0)
      if x.elems.length != n * opBytes i.op || decide (dataCap i.op < n) || decide (i.nelem < off + n) then countMalformed s
      else if owner == 0xFFFF then
        match i.operands.find? fun o => o.rank == r with
        | none => countMalformed s
        | some o =>
          if o.empty then dropLate e r c.job s
          else if i.op == 7 || o.start.isNone || off != o.elems.length then countMalformed s
          else if i.ended.isSome then s
          else advanceAny g e k st
            (onOperand g e k st r (fun o => { o with elems := o.elems ++ redValues x i.op, got := o.got + 1 }) s)
      else if off < a || decide (b < off + n) then countMalformed s
      else if i.op == 7 then
        if owner != r then countMalformed s
        else if i.ended.isSome then s
        else
          let s := onOperand g e k st r (fun o => { o with got := o.got + 1 }) s
          advanceAny g e k st (writeBcast g e k st owner (onInst g e k st (holdElems off (redValues x 7)) s))
      else if r != c.finalRank then countMalformed s
      else if i.ended.isSome then s
      else advanceAny g e k st (onInst g e k st (holdElems off (redValues x i.op)) s)

/-- RED_FINAL from module m: the IN set, or the reduced flag of a verdict. -/
def redFinal (m : Nat) (x : RedFinal) : State → State :=
  withRank x.name m fun g c r s =>
    let e := x.name.entry.toNat
    let k := x.name.k.toNat
    let st := x.name.step.toNat
    if r != c.finalRank || (e == 0xFFF && bits x.vote.toNat 2 6 != 0) || (e != 0xFFF && x.vote != 0) then countMalformed s
    else
      let s := ensureInst g e k st s
      match (s.group g).inst e k st with
      | none => s
      | some i =>
        if i.ended.isSome || i.final.isSome then s
        else
          let s := onInst g e k st (fun i => { i with
            final := some (x.nin.toNat, x.inmap)
            shards := if e == 0xFFF then [(0, b2n (bit x.vote.toNat 0)), (1, b2n (bit x.vote.toNat 1))] else i.shards }) s
          advanceAny g e k st s

/-- RED_FAIL: the instance is FAILED on this module too (R290). -/
def redFail (m : Nat) (n : InstName) : State → State :=
  withRank n m fun g c _ s =>
    let e := n.entry.toNat
    let k := n.k.toNat
    let st := n.step.toNat
    if e == 0xFFF then countMalformed s
    else
      let s := ensureInst g e k st s
      match (s.group g).inst e k st with
      | some i => if i.ended.isSome then s else learnFailed i c.job s
      | none => s

/-! ## Places on a port (R294) -/

def redName : Msg → Option InstName
  | .redStart r => some r.name
  | .redData r => some r.name
  | .redFinal r => some r.name
  | .redFail n => some n
  | _ => none

/-- A reduction message acts. -/
def redMsg (m : Nat) (x : Msg) : State → State :=
  match x with
  | .redStart r => redStart m r
  | .redData r => redData m r
  | .redFinal r => redFinal m r
  | .redFail n => redFail m n
  | _ => id

/-- The enabled group and the instance that a message from module m concerns: group, sender's rank, entry, K and STEP. -/
def State.redTarget (s : State) (m : Nat) (x : Msg) : Option (Nat × Nat × Nat × Nat × Nat) :=
  (redName x).bind fun n => (s.groupOf n.job.toNat).bind fun g =>
    (s.rankOf (s.gcfg g) m).map fun r => (g, r, n.entry.toNat, n.k.toNat, n.step.toNat)

/-- A message from rank r opens an instance. -/
def State.opens (s : State) (g r e k st : Nat) (x : Msg) : Bool :=
  match (s.group g).inst e k st, x with
  | none, _ => true
  | some i, .redStart y => i.past r && !i.repeats r y
  | some _, _ => false

/-- A message finds no place: it would open an instance on a port that holds 256. -/
def State.redBlocked (s : State) (m : Nat) (x : Msg) : Bool :=
  (s.redTarget m x).any fun (g, r, e, k, st) => s.opens g r e k st x && decide (256 ≤ s.portInsts (s.groupPort g))

/-- D, job, group and entry of a message, for the order of R294. -/
def State.redKey (s : State) (w : Nat × Msg) : Option Nat × Nat × Nat × Nat :=
  match s.redTarget w.1 w.2 with
  | none => (none, 0, 0, 0)
  | some (g, _, e, _, _) =>
    let c := s.gcfg g
    let y := s.entry c e
    let d := match w.2 with
      | .redStart r => s.deadline r.dlNs.toNat r.dlStitch.toNat
      | _ => if e == 0xFFF then none else s.deadline y.dlNs y.dlStitch
    (d, c.job, g, e)

/-- The waiting message that acts next: the first of its instance, not blocked, with no queued trigger of its port before it. -/
def State.nextRed (s : State) : Option (Nat × Msg) :=
  let first := fun (w : Nat × Msg) => (s.redWaits.find? fun v => redName v.2 == redName w.2) == some w
  let ready := fun (w : Nat × Msg) => first w && !s.redBlocked w.1 w.2 && (s.redTarget w.1 w.2).all fun (g, r, e, k, st) =>
    !(s.opens g r e k st w.2 && (s.waitingStarts (s.groupPort g)).any fun v => startsBefore v (s.redKey w))
  firstStart s.redKey (s.redWaits.filter ready)

/-- Waiting messages act while places are free; `fuel` bounds them. -/
def serveReds : (fuel : Nat) → State → State
  | 0, s => s
  | fuel + 1, s =>
    match s.nextRed with
    | some w => serveReds fuel (redMsg w.1 w.2 { s with redWaits := s.redWaits.erase w })
    | none => s

/-- Places that have become free are taken by waiting messages, then by waiting votes. -/
def servePlaces (s : State) : State :=
  let s := serveReds s.redWaits.length s
  forEach s.voteWaits joinVote { s with voteWaits := [] }

/-- A reduction message as it arrives: it waits where its port has no place for its instance, and behind earlier messages of
that instance (R294; log entry 77). -/
def takeRed (m : Nat) (x : Msg) (s : State) : State :=
  servePlaces (if s.redBlocked m x || s.redWaits.any fun w => redName w.2 == redName x
    then { s with redWaits := s.redWaits ++ [(m, x)] } else redMsg m x s)

/-! ## Time limits (R289, R290, R295, R296) -/

/-- The instance a time limit concerns, on its enabled group, while the engine reduces. -/
def State.timed (s : State) (n : InstName) : Option (Nat × GCfg × Inst) :=
  if s.hostReduce then none else
  (s.groupOf n.job.toNat).bind fun g =>
    ((s.group g).inst n.entry.toNat n.k.toNat n.step.toNat).bind fun i =>
      if i.ended.isSome then none else some (g, s.gcfg g, i)

/-- The operand of depth d is taken as empty. -/
def dropOperand (g : Nat) (c : GCfg) (i : Inst) (x : Src) (s : State) : State :=
  match i.operands.find? fun o => o.rank == x.rank with
  | some o =>
    if o.known then s
    else note 0x0400 1 s.tsc.now srcFirmware c.job 0 (i.entry * 65536 + x.lo)
      (onOperand g i.entry i.k i.step x.rank (fun o => { o with empty := true }) s)
  | none => s

/-- A trigger of the instance has crossed and waits to start (R281): the j-th queued of its entry with its STEP gets K. -/
def State.crossed (s : State) (g : Nat) (i : Inst) : Bool :=
  let r := s.group g
  let n := ((r.queued.filter fun q => q.1 == i.entry && s.stepOf q.2.2.2.1 == i.step).map fun q => q.2.2.2.2).sum
  decide ((i.k + 65536 - r.kOf i.entry i.step % 65536) % 65536 < n)

/-- The module's own trigger has not come by D + GRACE: it is OUT, LATE (R289). -/
def dropOwn (g : Nat) (c : GCfg) (i : Inst) (s : State) : State :=
  if i.triggered || i.ownEmpty || s.crossed g i then s
  else note 0x0400 1 s.tsc.now srcFirmware c.job 0 (i.entry * 65536 + c.rank)
    (onInst g i.entry i.k i.step (fun i => { i with ownEmpty := true, dec := 2 }) s)

/-- OPERAND_TIMEOUT: at D + depth · GRACE (R289). Nothing times out under FORCED (R299), for BCAST (R293) or without D. -/
def execOperandTimeout (n : InstName) (level : Nat) (s : State) : Host.Outcome State Fault Refusal :=
  done <|
    match s.timed n with
    | none => s
    | some (g, c, i) =>
      match s.instD i with
      | none => s
      | some d =>
        if c.forced || i.op == 7 || n.entry == 0xFFF || level == 0 then s
        else
          let s := tick (d + level * c.graceNs) s
          let s := if level == 1 then dropOwn g c i s else s
          let s := forEach (c.srcs.filter fun x => x.depth == level) (dropOperand g c i) s
          servePlaces (advanceAny g i.entry i.k i.step s)

/-- When FAIL_US runs out: from D, else from the first START (R290, R293, R299). -/
def State.failAt (s : State) (c : GCfg) (i : Inst) : Option Nat :=
  let fromStart := i.firstStart.map (· + c.failNs)
  if c.forced || i.op == 7 then fromStart
  else match s.instD i with
    | some d => some (d + c.failNs)
    | none => fromStart

/-- Data that some START promised has not all come. -/
def Inst.short (i : Inst) (c : GCfg) : Bool :=
  if i.op == 7 then i.firstStart.isSome && !(upTo c.nrank).all fun k => i.bcastHolds c k
  else i.operands.any fun o => o.start.isSome && !o.whole

/-- INSTANCE_FAIL_TIMEOUT: FAIL to every member, GRT_FAIL, and FAILED here (R290). -/
def execInstanceFailTimeout (n : InstName) (s : State) : Host.Outcome State Fault Refusal :=
  done <|
    match s.timed n with
    | none => s
    | some (_, c, i) =>
      match s.failAt c i with
      | none => s
      | some t =>
        if n.entry == 0xFFF || !i.short c then s
        else
          let s := tick t s
          let s := forEach c.others (fun r s => sendRank c r (.redFail (i.name c.job)) s) s
          servePlaces <| learnFailed i c.job (note 0x0402 2 s.tsc.now srcFirmware c.job 0 (i.entry * 65536 + i.k) s)

/-- The step of a slot that is VOTING over a group. -/
def State.votingOn (s : State) (n : Nat) : Option (Nat × GCfg × TStep) :=
  if s.hostReduce || !s.trnOn n || (s.slot n).pendFlag.isSome || (s.slot n).late.isSome
    || (s.slot n).halt == some .verdictLost then none else
  ((s.slot n).steps.find? fun x => x.phase == .voting).bind fun x =>
    (s.groupOf (s.trnJob n)).bind fun g => if 1 < (s.gcfg g).nrank then some (g, s.gcfg g, x) else none

/-- A remote flag that has not arrived counts as set (R295). -/
def dropFlag (g : Nat) (c : GCfg) (i : Inst) (x : Src) (s : State) : State :=
  match i.operands.find? fun o => o.rank == x.rank with
  | some o =>
    if o.empty || (o.start.isSome && o.whole) then s
    else note 0x0406 1 s.tsc.now srcFirmware c.job 0 x.rank
      (onOperand g i.entry i.k i.step x.rank (fun o => { o with empty := true, start := none, elems := [1] }) s)
  | none => s

/-- VOTE_TIMEOUT: VOTE_US times the depth after the step entered VOTING (R295). -/
def execVoteTimeout (slot : Fin 16) (level : Nat) (s : State) : Host.Outcome State Fault Refusal :=
  done <|
    match s.votingOn slot with
    | none => s
    | some (g, c, x) =>
      match (s.group g).inst 0xFFF 0 x.num with
      | none => s
      | some i =>
        if i.ended.isSome || level == 0 then s
        else
          let s := tick (x.votingAt + level * c.voteNs) s
          servePlaces (advanceAny g 0xFFF 0 x.num (forEach (c.srcs.filter fun y => y.depth == level) (dropFlag g c i) s))

/-- GRT_VERDICT_LOST: no verdict, and the slot halts for good (R296). -/
def execGrtVerdictLost (slot : Fin 16) (s : State) : Host.Outcome State Fault Refusal :=
  done <|
    match s.votingOn slot with
    | none => s
    | some (_, c, x) =>
      let s := tick (x.votingAt + (c.levels + c.teams + 1) * c.voteNs) s
      note 0x0407 2 s.tsc.now srcFirmware c.job 0 x.num (onSlot slot (fun t => { t with halt := some .verdictLost }) s)

/-- TRIGGER_QUEUED_START: a trigger that waited takes a place that has become free (R281), in the order of R294. -/
def execTriggerQueuedStart (t : Nat) (g : Fin 16) (entry : BitVec 12) (s : State) : Host.Outcome State Fault Refusal :=
  done <|
    let e := entry.toNat
    let ws := s.waitingStarts (s.groupPort g)
    match ws.find? fun w => w.2.2 == (g.val, e) with
    | some w => if ws.any fun v => startsBefore v w then s else servePlaces (startQueued g e (tick t s))
    | none => s

/-! ## Register writes (R276, R290, R300, R302) -/

/-- The conditions on setting EN of group g for a job. -/
def State.groupMayEnable (s : State) (g job : Nat) : Bool :=
  let c := s.gcfg g
  ((upTo 16).all fun h => h == g || !((s.gcfg h).on && (s.gcfg h).job == job))
    && decide (c.rank < c.nrank) && s.inWritable c.members (4 * c.nrank) && s.memberOf c c.rank == s.modnum
    && s.inWritable c.table (max 1 (96 * c.entries)) && (c.mlog == 0 || s.inWritable c.mlog (max 1 c.mlogSize))
    && decide ((c.levels + c.teams) * c.graceNs ≤ c.failNs)

/-- EN is set: trigger counts are zero, and a buckle that already satisfies its entry's wait triggers it (log entry 17). -/
def enableGroup (g v t src : Nat) (s : State) : State :=
  let s := setReg (grpAddr g 0x00) v s
  let s := onGroup g (fun x => { Group.reset with mlogNext := x.mlogNext }) s
  let c := s.gcfg g
  let trigs := ((upTo c.entries).map fun e => s.devNum (c.table + 96 * e + 0x2E) 2).eraseDups
  startNew (forEach trigs (fun b s => groupCross b t src none g s) s)

/-- A write of GRT_GRP_CTRL: whether it is accepted whole, and the state after. JOB and FORCED are written only while EN is
clear: the write is refused for them, whatever their value, and EN takes effect all the same (R15; log entry 57). -/
def groupCtrl (g v t src : Nat) (s : State) : Bool × State :=
  let c := s.gcfg g
  let old := s.reg (grpAddr g 0x00)
  let en := bit v 31
  let v := v % 2 ^ 32 - bits v 16 14 * 2 ^ 16
  if c.on then (false, if en then s else setReg (grpAddr g 0x00) (bits old 0 31) s)
  else
    let s := setReg (grpAddr g 0x00) (bits v 0 31) s
    if !en then (true, s)
    else if s.groupMayEnable g (bits v 0 16) then (true, enableGroup g v t src s) else (false, s)

/-- A write of GRT_GRP_VOTE: the verdict of the job's VOTING step, in host-assisted mode (R300). -/
def groupVote (g v : Nat) (s : State) : State :=
  let c := s.gcfg g
  if !s.hostReduce || !c.on then s
  else match s.slotOf c.job with
    | none => s
    | some n =>
      match (s.slot n).steps.find? fun x => x.phase == .voting with
      | some x => verdict n x.num (bit v 0) (bit v 1) s
      | none => s

end Sys2Proof.Machine
end

