-- ==== Sys2Proof/Machine/Boundary.lean ====
section
/-! DEFINITION. The stitch boundary (R43 to R46, R50, R54, R346, R361, R362, R409, R432, R433) with everything that takes
effect at it, the administration reserve (R44) and the origin of a new grid (R46). -/

namespace Sys2Proof.Machine

/-! ## Clusters at the boundary (R196, R346, R347) -/

/-- What a cluster keeps from one stitch to the next, with the T0 part then in force (R195). DESIGN CHOICE, UNSAFE (R207,
log 87): a context that issues first in a stitch makes no context switch. -/
def Cluster.nextStitch (t0 : Nat) (c : Cluster) : Cluster :=
  let c := c.ctxs.foldl (fun c x => match x.cmd with
    | some id => c.dropCmd id true
    | none => c) c
  { c with
    stat := none, vregs := [], ts := [], t0Kib := t0
    pfs := c.pfs.map fun p => { p with active := false }
    drnCopy := c.drn, lchCopy := c.lch
    ctxs := List.replicate 3 Ctx.reset, last := none, gate := []
    begun := [], suppress := [], replayQ := [], stopped := false }

/-- Re-executions that the boundary cuts off are reported, those of commands that had ended too (R348, R349). -/
def cutReplays (s : State) : State :=
  forEach (upTo 144) (fun x s => forEach ((s.cl x).suppress.map (·.1)) (fun id => cutReplay id x) s) s

/-! ## Modes (R409) -/

/-- PG_MODE of a hub page. -/
def State.modeOf (s : State) (page : Nat) : Nat := bits (s.reg (hubAddr page 0x10)) 0 2

def State.modesAsked (s : State) : Modes := ⟨s.modeOf 6, s.modeOf 7, s.modeOf 5, s.modeOf 10, s.modeOf 8, s.modeOf 11⟩

/-! ## Memories that leave service (R361, R362) -/

/-- Pages pinned in a tier. -/
def State.pinLoad (s : State) (t : Tier) : Nat :=
  (s.pages.filter fun e => e.2.kind != .unmapped && hintPin e.2.hint && tierOf (hintPrefer e.2.hint) == some t).length

/-- Pages that find no place without the memories that leave: beyond what T1 and T2 keep, or pinned in one of them beyond
what it keeps (R212, R362). -/
def State.unplaced (s : State) : Nat :=
  let t1 := s.room.pages .t1
  let t2 := s.room.pages .t2
  max (s.tierLoad .t1 + s.tierLoad .t2 - (t1 + t2)) ((s.pinLoad .t1 - t1) + (s.pinLoad .t2 - t2))

/-- SPR_EVAC_BLOCKED, once for each memory that cannot leave. -/
def blockLeaving (s : State) : State :=
  let n := s.unplaced
  let s := forEach (upTo 8) (fun h s =>
    if (s.hbm h).leaving && !(s.hbm h).blocked then
      note 0x060A 2 s.tsc.now srcSpare 0 0 n (onHbm h (fun m => { m with blocked := true }) s) else s) s
  forEach (upTo 16) (fun d s =>
    if (s.ddr d).leaving && !(s.ddr d).blocked then
      note 0x060A 2 s.tsc.now srcSpare 0 0 n (onDdr d (fun m => { m with blocked := true }) s) else s) s

/-- A stack holds no home and no pinned copy (R362). -/
def State.stackEmpty (s : State) (h : Nat) : Bool := stackLoadIn s.pages h == 0

/-- The pages of T2 find room in the other channels; which of them hold a page, no rule says (log entry 26). -/
def State.channelEmpty (s : State) (d : Nat) : Bool :=
  decide (s.tierLoad .t2 ≤ ((upTo 16).map fun e => if e != d && (s.ddr e).inserv then 512 * (s.ddr e).gib else 0).sum)

/-- A stack goes out of service, with the copies the saddlebag kept there as it chose. -/
def stackOut (h : Nat) (s : State) : State :=
  let drop := fun (p : Page) => if p.kind != .writable && p.stack == h then { p with copies := p.copies.filter (· != .t1) } else p
  note 0x0609 2 s.tsc.now srcSpare 0 0 h
    (onHbm h (fun m => { m with inserv := false, leaving := false }) { s with pages := s.pages.map fun e => (e.1, drop e.2) })

/-- Each memory that leaves goes out of service once it holds no home (R362). -/
def takeOut (s : State) : State :=
  let s := forEach (upTo 8) (fun h s => if (s.hbm h).leaving && s.stackEmpty h then stackOut h s else s) s
  forEach (upTo 16) (fun d s =>
    if (s.ddr d).leaving && s.channelEmpty d then
      note 0x0609 2 s.tsc.now srcSpare 0 0 (16 + d) (onDdr d (fun m => { m with inserv := false, leaving := false }) s) else s) s

/-- R362 at a boundary. -/
def evacuate (s : State) : State :=
  if !s.evacuating then s
  else
    let s := takeOut s
    if 0 < s.unplaced then blockLeaving s else s

/-! ## Capabilities (R36 to R40) -/

def ClState.code : ClState → Nat
  | .active => 0
  | .spare => 1
  | .retired => 2

/-- STATE and LOGICAL of MOD_CLUSTER_Tt_Cc. -/
def Cluster.capCode (c : Cluster) : Nat × Nat :=
  match c.state, c.logical with
  | .active, some l => (0, l)
  | st, _ => (st.code, 0xFF)

def bitMap (p : Nat → Bool) (n : Nat) : Nat := (upTo n).foldl (fun m i => if p i then m + 2 ^ i else m) 0

/-- The capability values measured now. REDUCED follows what R361 counts as capacity lost (log entry 25). -/
def State.measureCaps (s : State) : Caps :=
  let cl := s.clusters.map Cluster.capCode
  let active := (cl.filter fun c => c.1 == 0).length
  let hbm := (s.spr.hbm.filter (·.inserv)).length
  let ddr := s.spr.ddr.filter (·.inserv)
  let full := active == 128 && hbm == 8 && ddr.length == 16 && decide (24576 ≤ s.ftl.flashGib)
    && s.ports.all fun p => decide (16 ≤ p.lanes)
  { state := if full then 1 else 2
    epoch := s.caps.epoch
    trees := 15
    active := active
    hbmStacks := bitMap (fun h => (s.hbm h).inserv) 8
    hbmGib := 128 * hbm
    channels := bitMap (fun d => (s.ddr d).inserv) 16
    ddrGib := (ddr.map (·.gib)).sum
    flashChannels := 0xFFFF
    flashGib := s.ftl.flashGib
    ports := bitMap s.inService 8
    measured := true
    clusters := cl }

/-- Every command admitted is checked against the new capabilities (R39). -/
def recheck (s : State) : State :=
  forEach (s.cmdIds fun c => c.phase == .admitted) (fun id s => match s.cmds[id]? with
    | some c => if s.vacant c.d then refuse id 6 s else s
    | none => s) s

/-- The capability page at a boundary: CAP_REDUCED or CAP_CHANGE when EPOCH increments (R36, R38, R40). DESIGN CHOICE, UNSAFE
(R40, R64, log 69): an EPOCH step to or within REDUCED sends CAP_REDUCED each time, any other CAP_CHANGE. -/
def updateCaps (s : State) : State :=
  if s.sec.boot != .ready then s
  else
    let c := s.measureCaps
    if c == s.caps then s
    else
      let e := (s.caps.epoch + 1) % 2 ^ 32
      let s := { s with caps := { c with epoch := e } }
      recheck (note (if c.state == 2 then 0x0001 else 0x0002) (if c.state == 2 then 2 else 1) s.tsc.now srcFirmware 0 0 e s)

/-! ## The peer table (R312) -/

def State.peerTable (s : State) : List (List Byte) :=
  (upTo (bits (s.reg 0x90110) 0 16)).map fun m =>
    let a := s.reg64 0x90108 + 48 * m
    if s.usable a 48 then s.devBytes a 48 else List.replicate 48 0

def rereadPeers (s : State) : State :=
  if s.peerReload then { s with peers := s.peerTable, peerReload := false, peerErr := [] } else s

/-! ## Power (R432, R433) -/

def boundaryPower (s : State) : State :=
  if s.pwr.idlePend then onPwr (fun p => { p with state := .idle, idlePend := false, waking := false, treesReady := false }) s
  else if s.pwr.state == .idle && s.pwr.waking && (s.pwr.treesReady || decide (s.readyBy < s.sth.start)) then
    onPwr (fun p => { p with state := .on, waking := false, treesReady := false }) s
  else s

/-! ## STITCH_BOUNDARY -/

/-- The new grid begins at its origin: PERIOD_CHANGED where the period changes (R46). -/
def beginGrid (c : GridChange) (s : State) : State :=
  let changed := s.sth.period != c.period
  let s := onSth (fun h => { h with
    period := c.period, origin := c.origin, start := c.origin, boundary := c.origin + c.period
    gap := false, firstOfGrid := true, change := none, closed := false, lateSent := false }) s
  if changed then note 0x0105 0 s.tsc.now srcFirmware 0 0 c.period s else s

/-- The grid at the boundary b: the number advances, and a change that is due takes effect or opens its gap (R45, R46). -/
def advanceGrid (b : Nat) (s : State) : State :=
  let h := s.sth
  let s := onSth (fun h => { h with
    number := h.number + 1, start := b, boundary := b + h.period
    closed := false, lateSent := false, firstOfGrid := false }) s
  match h.change with
  | none => s
  | some c =>
    if c.origin == b then beginGrid c s
    else if c.origin < b + h.period then onSth (fun h => { h with gap := true, boundary := c.origin + c.period }) s
    else s

/-- The delay of a short stitch (R43): every later boundary, and a pending origin, move with it. -/
def slipGrid (slip : Nat) (s : State) : State :=
  let s := onSth (fun h => { h with
    boundary := h.boundary + slip, origin := h.origin + slip, replayed := false
    change := h.change.map fun c => { c with origin := c.origin + slip }
    slips := sat32 (h.slips + slip) }) s
  let s := tick s.sth.boundary s
  if slip == 0 then s else note 0x0104 1 s.tsc.now srcFirmware 0 0 slip s

/-- What takes effect at the boundary b once the stitch has ended and the number has advanced; the boundary was due at
`due`, before any slip. -/
def takeEffect (due b : Nat) (s : State) : State :=
  let s := cutReplays (applyMap due b s)
  let s := { s with clusters := s.clusters.map (Cluster.nextStitch (bits (s.reg 0x50114) 0 16)), modes := s.modesAsked }
  let s := onSpr (fun r => { r with cover := bit (s.reg 0xA0100) 0 }) s
  let s := boundaryPower s
  let s := forEach s.spr.changes applyChange (onSpr (fun r => { r with changes := [] }) s)
  let s := evacuate (flashPressure s)
  let s := updateCaps (restorePlane 1 (restorePlane 0 (rereadPeers s)))
  forEach (upTo 16) boundarySched (serveWaits (ageUses s))

def execStitchBoundary (slip : Nat) (s : State) : Host.Outcome State Fault Refusal :=
  done <|
    if s.clockless || s.sth.gap then s
    else if slip != 0 && !(shortPeriod s.sth.period && s.sth.replayed && decide (slip ≤ 40000)) then s
    else
      let due := s.sth.boundary
      let s := slipGrid slip s
      let b := s.sth.boundary
      let s := takeEffect due b (advanceGrid b (overrunAll b s))
      if s.sth.gap then s else servePlaces (offerHeld (dispatchAll b s))

/-! ## ADMIN_RESERVE_BEGIN (R44) -/

/-- Admission to the next stitch closes, and the event records that may be numbered are numbered and sent. -/
def execAdminReserveBegin (s : State) : Host.Outcome State Fault Refusal :=
  done <|
    if s.clockless || s.sth.gap || s.sth.closed then s
    else
      let s := onSth (fun h => { h with closed := true }) (tick (s.sth.boundary - 10000) s)
      match s.log.first with
      | none => s
      | some e =>
        if e.time + 2000 ≤ s.tsc.now then evtSweep (evtPumpAll (flushEvents s.log.held.length s)) else s

/-! ## GRID_ORIGIN_REACHED (R46) -/

def execGridOriginReached (s : State) : Host.Outcome State Fault Refusal :=
  done <|
    match s.sth.change with
    | some c => if s.clockless || !s.sth.gap then s else offerHeld (beginGrid c (tick c.origin s))
    | none => s

end Sys2Proof.Machine
end

