-- ==== Sys2Proof/Machine/Chain.lean ====
section
/-! DEFINITION. A pass of the lacing chain (R146 to R180): unpack, the stages, pack, the tile queue and the drain tap. -/

namespace Sys2Proof.Machine

/-! ## Vector registers (R148) -/

def vregSize : Nat := 1024
def Cluster.vreg (c : Cluster) (n len : Nat) : List Byte := readBytes c.vregs (vregSize * n) (min len vregSize)
def Cluster.putVreg (n : Nat) (bs : List Byte) (c : Cluster) : Cluster :=
  { c with vregs := writeBytes c.vregs (vregSize * n) (bs.take vregSize) }

/-- The elements of a register read at the working precision. -/
def Cluster.vregF (c : Cluster) (f : Fmt) (n e : Nat) : List FVal :=
  let k := if f = b64 then 8 else 4
  (chunks k e (c.vreg n (k * e))).map fun b => decodeF f (ofLE b)

def Cluster.opdBytes (c : Cluster) (o : ChainOpd) (len : Nat) : List Byte :=
  match o with
  | .reg n => c.vreg n len
  | .mem d _ => c.tsBytes d len

def Cluster.putOpd (o : ChainOpd) (bs : List Byte) (c : Cluster) : Cluster :=
  match o with
  | .reg n => c.putVreg n bs
  | .mem d _ => c.putTs d bs

/-! ## Unpack (R156) -/

/-- An element brought to the working precision: a NaN counts in NAN_IN, a binary64 that narrows in OVERFLOW or
UNDERFLOW. -/
def unpackIeee (f g : Fmt) (vs : List FVal) (n : LchCnt) : List FVal × LchCnt :=
  let n := { n with nanIn := n.nanIn + (vs.filter FVal.isNaN).length }
  if g = b64 then
    let rs := vs.map (convert f)
    (rs.map (·.v), { n with overflow := n.overflow + (rs.filter (·.overflow)).length
                            underflow := n.underflow + (rs.filter (·.underflow)).length })
  else (vs.map fun v => (convert f v).v, n)

def unpackX (f : Fmt) (vs : List XVal) (n : LchCnt) : List FVal × LchCnt :=
  (vs.map (XVal.toF f), { n with nanIn := n.nanIn + (vs.filter XVal.isNaN).length })

/-- The exact elements of consecutive blocks at a code and a scale address (R80, R156). -/
def blockVals (b : Blk) (codes : Nat → List Byte) (scales : List Byte) (e : Nat) : List XVal :=
  (upTo e).map fun i => b.value ((scales.getD (i / 32) 0).toNat) (b.unpack (codes (i / 32)) (i % 32))

def Cluster.srcBlockVals (c : Cluster) (b : Blk) (o : ChainOpd) (e : Nat) : List XVal :=
  match o with
  | .mem d sc => blockVals b (fun j => c.tsBytes (d + j * b.bytes) b.bytes) (c.tsBytes sc (ceilDiv e 32)) e
  | .reg _ => []

/-- The elements of a source that is not the queue. -/
def Cluster.unpack (c : Cluster) (o : ChainOp) (n : LchCnt) : List FVal × LchCnt :=
  let w := o.ccw
  match blkOfCode w.src with
  | some b => unpackX w.fmt (c.srcBlockVals b o.from_ o.e) n
  | none =>
    let k := elemBytes w.src
    let ws := (chunks k o.e (c.opdBytes o.from_ (k * o.e))).map ofLE
    match ieeeOfCode w.src with
    | some g => unpackIeee w.fmt g (ws.map (decodeF g)) n
    | none => unpackX w.fmt (ws.map kx16Value) n

/-! ## The tile queue and the tap (R158, R159, R161) -/

/-- The format of a tile's elements: an IEEE format, KX16 or a block format. -/
inductive TileFmt where
  | ieee (f : Fmt)
  | kx16
  | blk (b : Blk)
  deriving DecidableEq, Repr

def Tile.fmt (t : Tile) : TileFmt :=
  match t.outfmt with
  | 0 => .ieee (if t.mode == 1 then b16 else b32)
  | 1 => .ieee b32
  | 2 => .ieee b16
  | 3 => .kx16
  | f => (blkOfCode f).elim .kx16 .blk

/-- Elements of a tile: two an output for a pair (R159). -/
def Tile.count (t : Tile) : Nat := t.rows * 128 * (if t.outfmt == 0 && t.mode == 2 then 2 else 1)

/-- The values a pass reads of a tile's converted bytes, from its read position on; +0 beyond the element count. -/
def tileVals (t : Tile) (bytes : List Byte) (e : Nat) : List XVal :=
  (upTo e).map fun i =>
    let j := t.pos + i
    if t.count ≤ j then .zero
    else match t.fmt with
      | .ieee f => let k := if f = b16 then 2 else 4
                   XVal.ofF (decodeF f (ofLE (listRd bytes (k * j) k)))
      | .kx16 => kx16Value (ofLE (listRd bytes (2 * j) 2))
      | .blk b =>
        let (so, co) := b.place (j / 32)
        b.value (ofLE (listRd bytes so 1)) (b.unpack (listRd bytes co b.bytes) (j % 32))

/-- The slot behind the tap is freed when all of it has been read, and its operation's counts are whole (R138, R161). -/
def Cluster.freeTapped (t : Tile) (c : Cluster) : Cluster :=
  if t.tap then (c.freeSlot t.slot t.rows t.mode).countDrn t.cset t.op t.cmd {} .nothing else c

/-- The head tile after a pass has read e elements: advanced, or freed with its records written (R159). -/
def Cluster.advanceTile (t : Tile) (e rec_ : Nat) (c : Cluster) : Cluster :=
  if t.pos + e < t.count then { c with tq := setAt c.tq 0 { t with pos := t.pos + e } }
  else
    let c := ({ c with tq := c.tq.drop 1 } : Cluster).freeTapped t
    if t.records.isEmpty || rec_ == 0 then c else c.putTs rec_ t.records

/-! ## Pack (R175, R262, R263) -/

/-- The key of R262 for a command: the seed of the step it is bound to, or of the slot that serves its job, else 0. -/
def State.rngKey (s : State) (id : Nat) : Nat × Nat :=
  match s.cmds[id]? with
  | none => (0, 0)
  | some c =>
    match c.step with
    | some (n, k) => ((((s.slot n).find k).map (·.seed)).getD (s.reg64 (trnAddr n 0x18)), k)
    | none => (((s.slotOf c.d.job).map fun n => s.reg64 (trnAddr n 0x18)).getD 0, 0)

/-- r of R91 for an element at position p; none when the host's table cannot be read (R263). -/
def State.randomFor (s : State) (id tensor p : Nat) : Option Nat :=
  if s.hostRandom then
    let len := s.reg 0x70128
    if len == 0 then some 0
    else
      let a := s.reg64 0x70120 + 4 * (p % len)
      if s.usable a 4 then some (s.devNum a 4) else none
  else
    let (key, q) := s.rngKey id
    some (rng key tensor q p)

/-- What packing delivers: data bytes, scale bytes and counts. -/
structure Packed where
  data : List Byte := []
  scales : List Byte := []
  cnt : LchCnt
  deriving DecidableEq, Repr

def LchCnt.enc (z t : Nat) (n : LchCnt) : LchCnt := { n with zeroed := n.zeroed + z, saturated := n.saturated + t }

/-- Whole blocks from exact values, the last completed with zeros; blocks past the threshold count in FALLBACK. -/
def packBlocks (s : State) (b : Blk) (sat : Bool) : List (List XVal) → LchCnt → Packed
  | [], n => { cnt := n }
  | xs :: rest, n =>
    let e := encodeBlock b sat (padTo 32 .zero xs)
    let n := n.enc e.zeroed e.saturated
    let p := packBlocks s b sat rest { n with fallback := n.fallback + b2n (s.fallsBack e.saturated e.zeroed) }
    { p with data := b.pack e.codes ++ p.data, scales := BitVec.ofNat 8 e.scale :: p.scales }

/-- KX16 elements; none when a random word cannot be read. -/
def packKx16 (s : State) (o : ChainOp) : (i : Nat) → List XVal → LchCnt → Option Packed
  | _, [], n => some { cnt := n }
  | i, x :: xs, n =>
    let enc := if o.ccw.rnd && x.isFinite then
        (s.randomFor o.cmd (o.x.toNat / 2 ^ 32) ((o.x.toNat + i) % 2 ^ 32)).map fun r => encodeKx16Stoch o.ccw.sat r x
      else some (encodeKx16 o.ccw.sat x)
    match enc with
    | none => none
    | some e => (packKx16 s o (i + 1) xs (n.enc e.zeroed e.saturated)).map fun p => { p with data := leBytes 2 e.code ++ p.data }

def packIeee (g : Fmt) (k : Nat) (xs : List FVal) (n : LchCnt) : Packed :=
  let rs := xs.map (convert g)
  { data := rs.flatMap fun r => leBytes k (encodeF g r.v)
    cnt := { n with overflow := n.overflow + (rs.filter (·.overflow)).length
                    underflow := n.underflow + (rs.filter (·.underflow)).length } }

def packOut (s : State) (o : ChainOp) (xs : List FVal) (n : LchCnt) : Option Packed :=
  let w := o.ccw
  match blkOfCode w.dst with
  | some b => some (packBlocks s b w.sat (chunks 32 xs.length (xs.map XVal.ofF)) n)
  | none => match ieeeOfCode w.dst with
    | some g => some (packIeee g (elemBytes w.dst) xs n)
    | none => packKx16 s o 0 (xs.map XVal.ofF) n

/-! ## Direct scaling of codes (R157) -/

def Ccw.direct (c : Ccw) : Bool :=
  c.src == c.dst && decide (3 ≤ c.src) && decide (c.src ≤ 6) && c.enScl && c.sclop == 2
    && !(c.enF1 || c.enF2 || c.enLog || c.enCmp || c.enPrm || c.enSta || c.enRed)

/-- One KX16 code scaled by 2^k. -/
def directKx16 (sat : Bool) (k : Int) (code : Nat) : Enc :=
  let l := bits code 0 15
  if l == 0 || l == 0x7FFF then ⟨code, 0, 0⟩ else kx16Cand sat (bit code 15) (l + 512 * k)

/-- One block scaled by 2^k: scale byte, code bytes, and the counts. `m` elements lie below E. -/
def directBlock (s : State) (b : Blk) (sat : Bool) (k : Int) (m sc : Nat) (codes : List Byte) (n : LchCnt) : Packed :=
  let vals := (upTo m).map fun i => b.value sc (b.unpack codes i)
  let n := { n with nanIn := n.nanIn + (vals.filter XVal.isNaN).length }
  if m == 32 && (sc == 0 || sc == 0xFF) then ⟨codes, [BitVec.ofNat 8 sc], n⟩
  else if m == 32 && decide (1 ≤ (sc : Int) + k) && decide ((sc : Int) + k ≤ 0xFE) then
    ⟨codes, [BitVec.ofNat 8 ((sc : Int) + k).toNat], n⟩
  else packBlocks s b sat [vals.map (XVal.scale k)] n

def directBlocks (s : State) (b : Blk) (sat : Bool) (k : Int) : (e : Nat) → List (Nat × List Byte) → LchCnt → Packed
  | _, [], n => { cnt := n }
  | e, (sc, codes) :: rest, n =>
    let p := directBlock s b sat k (min 32 e) sc codes n
    let q := directBlocks s b sat k (e - 32) rest p.cnt
    { q with data := p.data ++ q.data, scales := p.scales ++ q.scales }

def Cluster.directPass (s : State) (o : ChainOp) (n : LchCnt) (c : Cluster) : Packed :=
  let w := o.ccw
  let k := signed64 o.k0.toNat
  match blkOfCode w.src, o.from_ with
  | some b, .mem d sc =>
    directBlocks s b w.sat k o.e ((upTo (ceilDiv o.e 32)).map fun j =>
      (c.tsNum (sc + j) 1, c.tsBytes (d + j * b.bytes) b.bytes)) n
  | _, _ =>
    let cs := (chunks 2 o.e (c.opdBytes o.from_ (2 * o.e))).map ofLE
    let es := cs.map (directKx16 w.sat k)
    { data := es.flatMap fun e => leBytes 2 e.code
      cnt := ({ n with nanIn := n.nanIn + (cs.filter fun x => kx16Value x == .nan).length } : LchCnt).enc
        (es.map Enc.zeroed).sum (es.map Enc.saturated).sum }

/-! ## CHAIN_PASS -/

/-- A packed result written to the destination (R149, R175). -/
def Cluster.putPacked (o : ChainOp) (p : Packed) (c : Cluster) : Cluster :=
  let c := c.putOpd o.to_ p.data
  match o.to_ with
  | .mem _ sc => if p.scales.isEmpty then c else c.putTs sc p.scales
  | .reg _ => c

/-- Reduce's value in Sd of the context that issued the pass. -/
def Cluster.putSd (o : ChainOp) (v : Option Nat) (c : Cluster) : Cluster :=
  match v with
  | some v => c.onCx o.ctx fun k => if k.cmd == some o.cmd then { k with s := setAt k.s o.sd (BitVec.ofNat 64 v) } else k
  | none => c

/-- Cycles a pass occupies the stages (R179). -/
def ChainOp.cycles (o : ChainOp) (tap : Bool) : Nat := ceilDiv o.e (if tap then 32 else if o.ccw.wp then 64 else 128)

/-- The pass leaves the queue, with the configuration word it ran. -/
def Cluster.popChain (o : ChainOp) (tap : Bool) (c : Cluster) : Cluster :=
  { c with chainQ := c.chainQ.drop 1, ccw := o.word, chainBusy := c.chainBusy + o.cycles tap }

/-- The operands of the stages (R151, R154, R171, R178). -/
def Cluster.chainIn (o : ChainOp) (c : Cluster) : ChainIn :=
  let w := o.ccw
  { va := c.vregF w.fmt o.va o.e
    vb := c.vregF w.fmt o.vb o.e
    idx := (chunks 4 o.e (c.vreg o.vb (4 * o.e))).map ofLE
    k0 := o.k0.toNat
    k1 := o.k1.toNat
    rows := if w.enLog && w.isSmx then
        (upTo (ceilDiv o.e 128)).map fun r => StatRow.ofRecord (c.tsBytes (tsAddr o.x.toNat + 16 * r) 16)
      else []
    sd := ((c.cx o.ctx).s.getD o.sd 0).toNat }

/-- The elements that enter the stages, and the cluster once they are read. -/
def Cluster.source (s : State) (o : ChainOp) (c : Cluster) : List FVal × LchCnt × Cluster :=
  if o.ccw.src == 7 then
    match c.tq with
    | t :: _ =>
      let bytes := if t.tap then unitsBytes t.outfmt (convUnits s t.outfmt t.mode t.sat t.bytes) else t.bytes
      let (xs, n) := unpackX o.ccw.fmt (tileVals t bytes o.e) {}
      (xs, n, c.advanceTile t o.e (tsAddr o.x.toNat))
    | [] => ([], {}, c)
  else
    let (xs, n) := c.unpack o {}
    (xs, n, c)

/-- A pass with elements; none when the host's random table cannot be read, and nothing then changes. DESIGN CHOICE, UNSAFE
(R159, log 68): where the record area and the destination overlap, the records are written first. DESIGN CHOICE, UNSAFE
(R178, log 85): a pass that frees its tile reads the records at X before it writes those it frees there. -/
def Cluster.runPass (s : State) (o : ChainOp) (c : Cluster) : Option Cluster :=
  let old := c.lch.getD o.ccw.cset {}
  if o.ccw.direct then
    let p := c.directPass s o { sumsq := old.sumsq, maxabs := old.maxabs }
    some ((c.putPacked o p).addLch o.ccw.cset o.n p.cnt)
  else
    let inp := c.chainIn o
    let (xs, n, c) := c.source s o
    let r := chainStages o.ccw inp old xs n
    (packOut s o r.xs r.cnt).map fun p => ((c.putPacked o p).addLch o.ccw.cset o.n p.cnt).putSd o r.sd

/-- A pass of no elements: only Reduce acts (R149, R174). -/
def Cluster.runEmpty (o : ChainOp) (c : Cluster) : Cluster :=
  let old := c.lch.getD o.ccw.cset {}
  let r := chainStages o.ccw (c.chainIn o) old [] {}
  (c.addLch o.ccw.cset o.n r.cnt).putSd o r.sd

/-- The records of the head tile, which this pass would free, do not fit at the record address (R155, R440). -/
def Cluster.recordsMisfit (o : ChainOp) (c : Cluster) : Bool :=
  match c.tq with
  | t :: _ => o.ccw.src == 7 && decide (t.count ≤ t.pos + o.e) && tsAddr o.x.toNat != 0
      && decide (tsSize < tsAddr o.x.toNat + t.records.length)
  | [] => false

/-- CHAIN_PASS: the oldest pass of the chain's queue goes through the stages (R146). A pass with SRC QUEUE waits while the
queue is empty (R159). DESIGN CHOICE, UNSAFE (log 82): not one with E of 0, which reads nothing (R149). -/
def execChainPass (t : Nat) (x : Fin 144) (s : State) : Host.Outcome State Fault Refusal :=
  done <|
    let c := s.cl x
    match c.chainQ with
    | [] => s
    | o :: _ =>
      if c.chainBlocked o then s
      else if o.e == 0 then onCl x (fun c => (c.popChain o false).runEmpty o) (tick t s)
      else if o.ccw.src == 7 && c.tq.isEmpty then s
      else
        let s := tick t s
        if c.recordsMisfit o then
          programErrorOf x o.ctx o.cmd 5 o.pc (onCl x (fun c => { c with lchErr := c.lchErr.add 3 o.ctx o.pc }) s)
        else
          let tap := o.ccw.src == 7 && c.tq.any fun t => t.tap
          match (c.popChain o tap).runPass s o with
          | some c' => onCl x (fun _ => c') s
          | none => programErrorOf x o.ctx o.cmd 3 o.pc s

end Sys2Proof.Machine
end

