-- ==== Sys2Proof/Machine/RegRead.lean ====
section
/-! DEFINITION. What a read of a register returns (R13, R69, R411, R416): the word each page presents, and the latch of
high halves. A register not named here reads what is stored. -/

namespace Sys2Proof.Machine

/-- Low or high 32 bits. -/
def lo32 (v : Nat) : Nat := v % 2 ^ 32
def hi32 (v : Nat) : Nat := v / 2 ^ 32 % 2 ^ 32

/-- The word of one half of a 64-bit value: `off` is that of the low half or that plus four. -/
def half (off lo v : Nat) : Nat := if off == lo then lo32 v else hi32 v

/-! ## The common header (R405, R406, R409) -/

/-- The first address of a page. -/
def Loc.base (l : Loc) : Nat :=
  match l.ty with
  | .edgPort => portAddr l.inst 0
  | .mxa => clusterAddr l.inst 0 0
  | .drn => clusterAddr l.inst 1 0
  | .lch => clusterAddr l.inst 2 0
  | .pmc => clusterAddr l.inst 3 0
  | .tst => clusterAddr l.inst 4 0
  | t => hubAddr ((posOf (fun u => u == t) hubPages).getD 0) 0

def Loc.addr (l : Loc) : Nat := l.base + l.off

/-- Assigned bits of PG_MODE (R408). -/
def PageTy.modeMask : PageTy → Nat
  | .trn | .sbg => 3
  | .rng | .spr | .grt | .ckp => 1
  | _ => 0

/-- PG_MODE_EFFECT (R409). -/
def State.modeEffect (s : State) : PageTy → Nat
  | .trn => s.modes.trn
  | .sbg => s.modes.sbg
  | .rng => s.modes.rng
  | .spr => s.modes.spr
  | .grt => s.modes.grt
  | .ckp => s.modes.ckp
  | _ => 0

/-- Commands admitted and dispatched that use a gated page. -/
def State.usersOf (s : State) (base : Nat) : Nat :=
  (s.cmds.filter fun c => (c.phase == .admitted || c.phase == .dispatched) && (s.pagesUsed c.d).contains base).length

/-- An abort written to ABORT of a page has not yet stopped every command it aborts (R56, R405). -/
def State.aborting (s : State) (base now : Nat) : Bool := s.aborts.any fun a => a.1 == base && decide (now < a.2)

/-- The common header at a read (R405). -/
def State.headerWord (s : State) (l : Loc) (now : Nat) : Nat :=
  match l.off with
  | 0x00 => l.ty.code * 2 ^ 24 + l.inst * 2 ^ 16 + b2n l.ty.gated * 128 + b2n l.viaAlias * 64
  | 0x04 => 0x10000
  | 0x08 => if l.ty.gated then s.reg l.addr else 0
  | 0x0C => if l.ty.gated then let n := s.usersOf l.base
                               b2n (s.aborting l.base now) * 131072 + b2n (n == 0) * 65536 + sat16 n else 0
  | 0x10 => s.reg l.addr % (l.ty.modeMask + 1)
  | 0x14 => s.modeEffect l.ty % (l.ty.modeMask + 1)
  | _ => 0

/-! ## MOD_, STH_, TSC_, EVT_ (R36, R69) -/

/-- Zero until the first boundary after boot (R36). -/
def State.modWord (s : State) (off : Nat) : Nat :=
  let c := s.caps
  if off == 0x100 then 0x77200301
  else if off == 0x104 then 0x10000
  else if !c.measured then 0
  else if 0x200 ≤ off then
    let p := c.clusters.getD ((off - 0x200) / 4) (0, 0)
    p.1 * 256 + p.2
  else match off with
    | 0x108 => c.state
    | 0x10C => c.epoch
    | 0x110 => c.trees * 2 ^ 24 + c.active * 2 ^ 16 + 0x8080
    | 0x114 => 0x01008020
    | 0x118 => 0x41A
    | 0x11C => 0x1FF
    | 0x120 => 0x01004000
    | 0x124 => c.hbmStacks * 2 ^ 24 + c.hbmGib
    | 0x128 => c.channels * 2 ^ 16 + c.ddrGib
    | 0x12C => c.flashChannels * 2 ^ 16 + c.flashGib
    | 0x130 => c.ports
    | _ => 0

def State.sthWord (s : State) (off stored : Nat) : Nat :=
  let h := s.sth
  match off with
  | 0x104 => h.period
  | 0x108 | 0x10C => half off 0x108 h.origin
  | 0x110 => budgetOf h.period
  | 0x114 | 0x118 => half off 0x114 h.number
  | 0x11C => b2n h.change.isSome * 2 + b2n (shortPeriod h.period)
  | 0x120 => h.overruns
  | 0x124 => h.refused
  | 0x128 => h.slips
  | _ => stored

/-- An offset clamped to ±(2^31 − 1), two's complement. -/
def clampOffset (o : Int) : Nat :=
  offsetArg (if 2147483647 < o then 2147483647 else if o < -2147483647 then -2147483647 else o)

/-- `now` is the counter at the moment of the read (R416). -/
def State.tscWord (s : State) (now off stored : Nat) : Nat :=
  match off with
  | 0x100 | 0x104 => half off 0x100 now
  | 0x108 => b2n s.tsc.stepped * 4 + b2n s.tsc.holdover * 2 + b2n s.tsc.locked
  | 0x10C => clampOffset s.tsc.offset
  | 0x110 => offsetArg s.tsc.slew
  | _ => stored

/-- The oldest running number held, else the next to be given. -/
def EvtLog.tail (l : EvtLog) : Nat := (l.held.filterMap (·.seq)).foldl min l.next

def State.evtWord (s : State) (off stored : Nat) : Nat :=
  let l := s.log
  match off with
  | 0x100 => (l.next + 2 ^ 32 - 1) % 2 ^ 32
  | 0x104 => lo32 l.tail
  | 0x108 => l.lost
  | 0x118 => l.lostFault
  | _ => stored

/-! ## SBG_ (R241) -/

def State.pagesOfKind (s : State) (k : PageKind) : Nat := (s.pages.filter fun e => e.2.kind == k).length

def State.sbgWord (s : State) (off stored : Nat) : Nat :=
  if 0x400 ≤ off then
    let c := s.sched ((off - 0x400) / 0x40)
    match (off - 0x400) % 0x40 with
    | 0x1C => c.next
    | 0x2C => b2n c.ovf * 2 ^ 31 + c.sinceEn % 2 ^ 20
    | 0x3C => c.misses
    | _ => stored
  else match off with
    | 0x100 => b2n (!s.mapReqs.isEmpty)
    | 0x104 => s.pagesOfKind .writable
    | 0x108 => s.pagesOfKind .library
    | 0x10C | 0x180 => s.pagesOfKind .lent
    | 0x110 => (mapWeight s.pages).2.2
    | 0x134 => s.pgResult.1 * 256 + s.pgResult.2
    | 0x138 => s.pgState
    | 0x144 => s.convZeroed
    | 0x148 => s.convSat
    | 0x160 => s.overProv / 1024
    | 0x164 => s.ftl.retired
    | 0x168 => sat16 s.ftl.erase.1 * 65536 + sat16 s.ftl.erase.2
    | 0x16C => sat32 s.ftl.refreshes
    | 0x170 => (s.pages.filter fun e => e.2.lost).length
    | 0x184 => (s.pages.filter fun e => !e.2.lentOut.isEmpty).length
    | _ => stored

/-! ## TRN_, RNG_, GRT_ (R275, R302) -/

def State.trnWord (s : State) (off stored : Nat) : Nat :=
  if off < 0x400 then stored else
  let t := s.slot ((off - 0x400) / 0x80)
  match (off - 0x400) % 0x80 with
  | 0x0C => b2n t.halt.isSome * 4 + b2n t.diverge * 2 + b2n (t.steps.any fun x => x.phase != .collecting && x.phase != .retired)
  | 0x20 => setBits stored 0 5 t.exp
  | 0x24 => t.clean
  | 0x28 => setBits stored 2 2 t.effect
  | 0x68 => sat32 t.overflows
  | 0x6C => sat32 t.discards
  | _ => stored

def State.rngWord (s : State) (off stored : Nat) : Nat :=
  if off == 0x118 then rng (s.reg64 0x70100) (s.reg 0x7010C) (s.reg64 0x70110) (s.reg 0x70108) else stored

def State.grtWord (s : State) (off stored : Nat) : Nat :=
  if 0x400 ≤ off then
    let g := s.group ((off - 0x400) / 0x80)
    match (off - 0x400) % 0x80 with
    | 0x34 => lo32 g.mlogNext
    | 0x44 => sat32 g.ended
    | 0x48 => sat32 g.partialCnt
    | 0x4C => sat32 g.failed
    | _ => stored
  else if 0x120 ≤ off then
    let p := (off - 0x120) / 4
    min 256 (s.portInsts p) * 256 + (s.port p).spareLanes * 32 + min 16 (s.port p).lanes
  else match off with
    | 0x100 => ((upTo 8).map fun p => min 256 (s.portInsts p)).sum
    | 0x104 => s.grtDropped
    | 0x108 => s.grtFails
    | _ => stored

/-! ## EDG_ (R341, R342) -/

def SessPhase.code : SessPhase → Nat
  | .pending => 1
  | .open_ => 2
  | .linger => 3

/-- An entry of the session table (log entry 28). -/
def Session.word (x : Session) : Nat := x.phase.code * 2 ^ 24 + x.cls * 2 ^ 22 + x.slot * 2 ^ 19 + x.job

def State.edgWord (s : State) (off stored : Nat) : Nat :=
  if 0x200 ≤ off then
    match s.sessions.find? fun x => x.entry == (off - 0x200) / 8 with
    | some x => if off % 8 == 0 then x.word else x.sid
    | none => 0
  else match off with
    | 0x11C => s.reservations * 256 + s.sessionsHeld
    | 0x124 => s.authFails
    | 0x128 => s.drops
    | 0x12C => bitMap (fun n => (s.locks.getD n none).isSome) 8
    | _ => stored

/-- A port page. FEC counts codewords from the first training on; how many is free (log entry 53). -/
def State.portWord (s : State) (p off stored now : Nat) : Nat :=
  let q := s.port p
  let fec := fun (n : Nat) => if q.mode == 0 then 0 else n
  match off with
  | 0x100 => (if q.link then q.mode else 0) * 256 + q.working * 16 + b2n q.secured * 8 + b2n (s.inService p) * 2 + b2n q.link
  | 0x108 | 0x10C => half off 0x108 (s.macOf p)
  | 0x124 | 0x128 => half off 0x124 (fec (Config.fecCorrected p now))
  | 0x12C => fec (sat32 (Config.fecUncorrected p now))
  | 0x130 | 0x134 => half off 0x130 q.rx
  | 0x138 | 0x13C => half off 0x138 q.tx
  | 0x140 => q.secDrop
  | 0x148 => q.rxDrop
  | _ => stored

/-! ## SPR_, CKP_ (R372, R373) -/

/-- SPARE clusters of a tree, as the capability page shows them. -/
def State.treeSpares (s : State) (t : Nat) : Nat := (((s.caps.clusters.drop (36 * t)).take 36).filter fun c => c.1 == 1).length

def State.sprPower (s : State) : Nat :=
  b2n s.spr.standbyOk * 2048 + s.spr.pll * 1024
    + (upTo 5).foldl (fun n r => n + s.spr.phases.getD r 0 * 4 ^ r) 0

/-- PPS_OUT at the counter's stamp: high for 10 µs from each whole second while the counter is locked (R428). -/
def State.ppsOut (s : State) : Bool := s.tsc.locked && !s.clockless && decide (s.tsc.now % 1000000000 < 10000)

/-- ROWS and PCH_LEFT report spares, so they read zero until the spares are measured. -/
def State.hbmWord (s : State) (h : Nat) : Nat :=
  let m := s.hbm h
  sat16 m.ceAt.length * 65536 + (if s.caps.measured then min 255 (m.rows.map (·.2)).sum * 256 + (2 - m.spared.length) else 0)

def eraseField (r : Option Nat) : Nat := (r.map fun d => 32 + d).getD 0

def State.ddrWord (s : State) (d : Nat) : Nat :=
  let m := s.ddr d
  sat16 m.ceAt.length * 65536 + eraseField m.r1 * 1024 + eraseField m.r0 * 16 + b2n m.inserv

/-- `now` counts the scrub passes made by then (log entry 23). -/
def State.sprWord (s : State) (now off stored : Nat) : Nat :=
  let r := s.spr
  if 0x240 ≤ off then s.ddrWord ((off - 0x240) / 4)
  else if 0x200 ≤ off then s.hbmWord ((off - 0x200) / 4)
  else match off with
    | 0x104 => coverCap s.sth.period
    | 0x108 => if s.caps.measured then (upTo 4).foldl (fun n t => n + s.treeSpares t * 16 ^ t) 0 else 0
    | 0x10C => r.lastCode * 2 ^ 24 + r.lastSource
    | 0x110 | 0x114 => half off 0x110 r.lastTime
    | 0x118 => r.replays
    | 0x120 => r.memUe
    | 0x124 => if s.caps.measured then s.sprPower else 0
    | 0x128 => sat16 (Config.hbmPasses now) * 65536 + sat16 (Config.ddrPasses now)
    | 0x12C => r.fwRestarts
    | _ => stored

def CkpPhase.code : CkpPhase → Nat
  | .idle => 0
  | .armed => 1
  | .streaming => 2
  | .waiting => 3
  | .done => 4
  | .aborted => 5

def State.ckpWord (s : State) (off stored : Nat) : Nat :=
  match off with
  | 0x104 => s.ckp.cause * 256 + s.ckp.phase.code
  | 0x128 | 0x12C => half off 0x128 s.ckp.acked
  | _ => stored

/-! ## BOOT_, PWR_ (R400, R438) -/

def BootPhase.code : BootPhase → Nat
  | .rom => 0
  | .init => 1
  | .ready => 2
  | .fail => 3

def FwImage.info (i : FwImage) : Nat := b2n i.valid * 2 ^ 31 + i.keyidx * 256 + i.svn

def State.bootWord (s : State) (off stored : Nat) : Nat :=
  let c := s.sec
  if 0x140 ≤ off then
    let i := s.kept.image ((off - 0x140) / 8)
    if off % 8 == 0 then i.version else i.info
  else match off with
    | 0x100 => c.boot.code
    | 0x104 => c.cause
    | 0x108 => b2n c.fallback * 8 + s.kept.pref * 4 + c.booted
    | 0x10C => c.fwver
    | 0x110 => c.svn * 256 + s.kept.counter
    | 0x114 => s.kept.boots
    | 0x130 => b2n c.upd.isSome * 2 ^ 31 + c.updResult
    | _ => stored

def State.pwrWord (s : State) (now off stored : Nat) : Nat :=
  let p := s.pwr
  let m := p.meas
  if 0x110 ≤ off && decide (off < 0x124) then (m.rails.getD ((off - 0x110) / 4) 0).toNat
  else match off with
    | 0x100 => if p.state == .idle then 2 else 1
    | 0x108 => m.volt.toNat * 65536 + m.curr.toNat
    | 0x10C => m.watts.toNat
    | 0x130 => m.junction.toNat * 2 ^ 24 + m.inlet.toNat * 2 ^ 16 + m.outlet.toNat * 256 + m.board.toNat
    | 0x134 => m.flow.toNat
    | 0x13C => p.alarm
    | 0x140 | 0x144 => half off 0x140 p.energy
    | 0x148 => b2n s.tsc.todValid * 8 + b2n (s.tsc.lastPulse.any fun t => decide (now ≤ t + 1500000000)) * 4
        + b2n p.pwrEn * 2 + b2n p.alert
    | _ => stored

/-! ## Cluster pages (R144, R145, R180, R207) -/

/-- ERR, CODE and COUNT of an issue error register. -/
def ErrReg.word (e : ErrReg) : Nat := b2n e.err * 2 ^ 31 + e.code * 65536 + e.count

/-- MXA_STATUS (R145), of the operation at the head of the array's queue: in its fence, or streaming, with its stationary
tile loading unless it keeps one. DESIGN CHOICE (log 29): the cycles of each are not followed. -/
def Cluster.mxaStatus (c : Cluster) : Nat :=
  match c.arrQ with
  | [] => 0
  | o :: _ =>
    let w := ArrWord.ofWord o.word
    if o.cmb then 1
    else if c.cfg.any fun f => f != w.config then 4
    else b2n (!w.keep) * 2 + 1

/-- Spare columns are taken from the lowest, so those in use are the low ones (R21). -/
def Cluster.mxaWord (c : Cluster) (off stored : Nat) : Nat :=
  match off with
  | 0x100 => c.mxaStatus
  | 0x104 => match c.cfg with
    | some (f, m, r) => f * 16 + m * 4 + b2n r * 2 + 1
    | none => 0
  | 0x108 => (4 - c.colUsed) * 16 + (2 ^ c.colUsed - 1)
  | 0x10C => c.mxaErr.word
  | 0x110 | 0x114 => half off 0x110 c.busy
  | 0x118 | 0x11C => half off 0x118 c.bubble
  | 0x120 => sat32 c.fences
  | 0x124 => sat32 c.fenceCycles
  | _ => stored

/-- SLOTS_HELD of DRN_STATUS, in its seven bits (R145): slots that hold a value neither emitted nor spilled, each once. -/
def Cluster.slotsHeld (c : Cluster) : Nat :=
  min 127 (((c.slots.filter fun k => !k.freed).map fun k => (k.slot, k.rows, k.mode)).eraseDups).length

/-- The accumulator that DRN_DBG_SEL names, while MXA_DEBUG.EN is set (R144). DESIGN CHOICE, UNSAFE (log 80): a slot number
that no operation has named reads zero. -/
def State.debugData (s : State) (x : Nat) : Nat :=
  let sel := s.reg (clusterAddr x 1 0x110)
  let row := bits sel 10 8
  if !bit (s.reg (clusterAddr x 0 0x128)) 0 then 0
  else match (s.cl x).lastNamed.find? fun k => k.slot == bits sel 18 6 with
    | none => 0
    | some k =>
      if k.rows ≤ row || (bits sel 0 2 != 0 && k.mode != 2) then 0
      else
        let n := min 4 (accBytes k.mode)
        readNum (s.cl x).ostore (k.range.1 + (row * 128 + bits sel 3 7) * accBytes k.mode + 4 * bits sel 0 2) n

/-- The drain block's registers (R145). DESIGN CHOICE, UNSAFE (log 81): NEXT after COLTILE 0xFFF reads 0x000. -/
def State.drnWord (s : State) (x off stored : Nat) : Nat :=
  let c := s.cl x
  if 0x200 ≤ off then (c.drn.getD ((off - 0x200) / 0x20) {}).word ((off - 0x200) % 0x20 / 4)
  else match off with
    | 0x100 => c.slotsHeld * 256 + b2n (c.tq.any fun t => t.tap && decide (0 < t.pos)) * 2
        + b2n (!c.emits.isEmpty || bit c.mxaStatus 0)
    | 0x10C => c.run.next % 4096 * 16 + b2n c.run.seqErr * 2 + b2n c.run.active
    | 0x114 => s.debugData x
    | _ => stored

/-- PATH as LCH_TQ shows it: set at the first boundary after boot for a recorded TAP spare, and at the boundary after a
tile-queue fault (R350, R377). -/
def State.pathShown (s : State) (x : Nat) : Bool := (s.cl x).tap && s.caps.measured

def State.lchPageWord (s : State) (x off stored : Nat) : Nat :=
  let c := s.cl x
  let tiles := c.tq.filter fun t => !t.tap
  let waits := c.tq.isEmpty && c.chainQ.head?.any fun o => o.ccw.src == 7 && o.e != 0
  if 0x200 ≤ off then lchWord (c.lch.getD ((off - 0x200) / 0x40) {}) ((off - 0x200) % 0x40 / 4)
  else match off with
    | 0x100 => b2n waits * 4 + b2n (s.pathShown x) * 2 + b2n (!c.chainQ.isEmpty && !waits)
    | 0x104 => c.vlSet
    | 0x108 | 0x10C => half off 0x108 c.ccw
    | 0x110 => c.lchErr.word
    | 0x114 => b2n (s.pathShown x) * 2 ^ 31 + tiles.length * 65536 + ceilDiv (tiles.map fun t => t.bytes.length).sum 1024
    | 0x11C | 0x120 => half off 0x11C c.chainBusy
    | 0x128 => c.discards
    | _ => stored

/-- Contexts as a bit map. -/
def State.ctxMap (s : State) (x : Nat) (p : Nat → Bool) : Nat :=
  bitMap (fun k => ((s.cl x).cx k).cmd.isSome && p k) 3

/-- The context that issues now: the one that runs, else the ready one admitted first (R185). -/
def State.running (s : State) (x : Nat) : Nat :=
  ((s.holder x).orElse fun _ => s.firstReady x none).getD 3

def State.ctxTag (s : State) (x k : Nat) : Nat :=
  ((((s.cl x).cx k).cmd.bind fun id => s.cmds[id]?).map fun c => c.d.tag).getD 0

def State.pmcWord (s : State) (x off stored : Nat) : Nat :=
  let c := s.cl x
  match off with
  | 0x100 => s.ctxMap x (fun _ => true) * 256 + s.ctxMap x (fun k => !s.stallOver x k) * 32 + s.running x
  | 0x104 => s.ctxTag x 0
  | 0x108 => s.ctxTag x 1
  | 0x10C => s.ctxTag x 2
  | 0x110 => c.pmcErr.word + c.pmcErr.ctx * 2 ^ 24
  | 0x114 => lo32 c.pmcErr.pc
  | 0x118 | 0x11C => half off 0x118 c.switches
  | 0x120 | 0x124 => half off 0x120 c.issued
  | _ => stored

/-- HELD of TST_PF_n: tiles delivered and not released; a tile may be released before an older one (R199). -/
def Prefetcher.held (p : Prefetcher) : Nat :=
  if p.active then ((upTo p.ring).filter fun i => decide (p.released + i < p.delivered)
    && !(p.relPending.any fun e => e.1 == p.released + i + p.ring)).length
  else 0

def Prefetcher.word (p : Prefetcher) : Nat :=
  p.delivered % 65536 * 65536 + p.held * 8 + b2n (p.active && decide (p.delivered < p.count))

def Cluster.tstWord (c : Cluster) (off stored : Nat) : Nat :=
  if 0x110 ≤ off && decide (off < 0x120) then (c.pf ((off - 0x110) / 4)).word
  else match off with
    | 0x104 => c.t0Kib
    | 0x120 | 0x124 => half off 0x120 c.conflicts
    | _ => stored

/-! ## One read -/

/-- The word a register presents, its WO fields reading zero. -/
def State.regWord (s : State) (l : Loc) (now : Nat) : Nat :=
  let stored := s.reg l.addr
  if l.off < 0x100 then s.headerWord l now
  else match l.ty with
    | .mod => s.modWord l.off
    | .sth => s.sthWord l.off stored
    | .tsc => s.tscWord now l.off stored
    | .evt => s.evtWord l.off stored
    | .pmcHub => stored
    | .sbg => s.sbgWord l.off stored
    | .trn => s.trnWord l.off stored
    | .rng => s.rngWord l.off stored
    | .grt => s.grtWord l.off stored
    | .edg => s.edgWord l.off stored
    | .spr => s.sprWord now l.off stored
    | .ckp => s.ckpWord l.off stored
    | .boot => s.bootWord l.off stored
    | .sec => s.secWord l.off
    | .pwr => s.pwrWord now l.off stored
    | .edgPort => s.portWord l.inst l.off stored now
    | .mxa => (s.cl l.inst).mxaWord l.off stored
    | .drn => s.drnWord l.inst l.off stored
    | .lch => s.lchPageWord l.inst l.off stored
    | .pmc => s.pmcWord l.inst l.off stored
    | .tst => (s.cl l.inst).tstWord l.off stored

/-- A latched high half, if a read of the low half left one. -/
def State.latched (s : State) (addr : Nat) : Option Nat := (s.latches.find? fun e => e.1 == addr).map fun e => e.2.toNat

def unlatch (addr : Nat) (s : State) : State := { s with latches := s.latches.filter fun e => e.1 != addr }

/-- A read of a register that its page's map lists, or of a reserved offset, which reads zero (R402). A read of a _LO
register latches its _HI register; reads of that return the latch, until the next read of the _LO register (R69; log
entry 31). -/
def readLoc (l : Loc) (now : Nat) (s : State) : Nat × State :=
  match l.row with
  | none => (0, s)
  | some (r, _) =>
    let v := s.regWord l now
    if r.lowHalf then
      let h := s.regWord { l with off := l.off + 4 } now
      (v, { unlatch (l.addr + 4) s with latches := (unlatch (l.addr + 4) s).latches ++ [(l.addr + 4, BitVec.ofNat 32 h)] })
    else ((s.latched l.addr).getD v, s)

end Sys2Proof.Machine
end

