-- ==== Sys2Proof/Machine/Regs.lean ====
section
/-! DEFINITION. Register writes (R13 to R15, R331, R405 to R415, R417) and the order and timing of the accesses of one
message (R418). A write answers whether it was accepted, with the state after. -/

namespace Sys2Proof.Machine

/-! ## Who writes (R412 to R414) -/

/-- The session and the port a register message came through. -/
structure Writer where
  sid : Nat
  cls : Nat
  slot : Nat
  job : Nat
  port : Nat
  deriving DecidableEq, Repr

/-- The registers that R413 gives to job J, as they stand. -/
def State.jobOwns (s : State) (job : Nat) (l : Loc) : Bool :=
  match l.ty with
  | .pmcHub => decide (0x1000 ≤ l.off) && decide (l.off < 0x9000) && l.off % 8 == 0 && s.buckleJob ((l.off - 0x1000) / 8) == job
  | .trn =>
    let n := (l.off - 0x400) / 0x80
    decide (0x400 ≤ l.off) && (l.off - 0x400) % 0x80 != 0 && s.trnOn n && s.trnJob n == job
  | .grt =>
    let g := (l.off - 0x400) / 0x80
    decide (0x400 ≤ l.off) && (l.off - 0x400) % 0x80 != 0 && (s.gcfg g).on && (s.gcfg g).job == job
  | .sbg =>
    let n := (l.off - 0x400) / 0x40
    decide (0x400 ≤ l.off) && (l.off - 0x400) % 0x40 != 0x0C && bits (s.reg (schAddr n 0x0C)) 0 16 == job
  | _ => false

/-- A bit of SEC_POLICY in force. -/
def State.policy (s : State) (i : Nat) : Bool := bit s.sec.map.policy i

/-- A write that its class permits (R412 to R414, R375, R385, R393, R398). -/
def State.mayWrite (s : State) (w : Writer) (l : Loc) (v : Nat) : Bool :=
  if w.cls == 2 then s.jobOwns w.job l
  else match l.ty, l.off with
    | .mxa, 0x128 => w.cls == 3 && (!bit v 0 || s.policy 0)
    | .drn, 0x110 => w.cls == 3
    | .boot, 0x108 => w.cls == 3
    | .boot, 0x12C => match bits v 0 2 with
      | 1 => s.policy 1
      | 2 => s.policy 2
      | _ => true
    | .sec, 0x110 => !bit v 0 || w.cls == 3 || s.policy 3
    | .sec, 0x128 => !bit v 0 || (s.keySlot w.slot).provision
    | _, _ => true

/-! ## Fields (R13 to R15) -/

/-- A word being written: the register as it will show its RW fields, the values that WO and W1C fields received, and
whether a field was refused for its value. -/
structure Merge where
  word : Nat
  act : Nat
  bad : Bool
  deriving DecidableEq, Repr

/-- One field of a write; `allows` is what more than its range is asked of a value, and `shut` says which fields the state
keeps from being written, whatever the value (R15: the exemption of an equal value does not reach them). -/
def mergeField (v : Nat) (shut : Field → Bool) (allows : Field → Nat → Bool) (m : Merge) (f : Field) : Merge :=
  let n := f.hi + 1 - f.lo
  let x := bits v f.lo n
  match f.acc with
  | .ro | .rwl => m
  | .rw =>
    if shut f then { m with bad := true }
    else if x == bits m.word f.lo n then m
    else if f.ok.allows x && allows f x then { m with word := setBits m.word f.lo n x }
    else { m with bad := true }
  | .wo | .w1c => if f.ok.allows x then { m with act := setBits m.act f.lo n x } else { m with bad := true }

def mergeWord (r : RegRow) (shown v : Nat) (shut : Field → Bool) (allows : Field → Nat → Bool) : Merge :=
  r.fields.foldl (mergeField v shut allows) ⟨shown, 0, false⟩

/-- The part of a word that a register stores: its RW fields as written, its RO fields as they stood (R13). -/
def RegRow.store (r : RegRow) (old word : Nat) : Nat :=
  r.fields.foldl (fun n f =>
    if f.acc == .rw then setBits n f.lo (f.hi + 1 - f.lo) (bits word f.lo (f.hi + 1 - f.lo))
    else if f.acc == .ro then setBits n f.lo (f.hi + 1 - f.lo) (bits old f.lo (f.hi + 1 - f.lo))
    else n) 0

def RegRow.hasRw (r : RegRow) : Bool := r.fields.any fun f => f.acc == .rw

/-- A register with no field that any class may still write: reserved, RO, or RWL after the lock (R13, R331). -/
def RegRow.inert (r : RegRow) : Bool := r.fields.all fun f => f.acc == .rwl || f.acc == .ro

/-- A register of RWL fields, whose writes after the lock are ignored for every class (R412). -/
def RegRow.locked (r : RegRow) : Bool := r.fields.any fun f => f.acc == .rwl

/-- A reduction group is enabled or a lending association is active (R341). -/
def State.fabricBusy (s : State) : Bool :=
  ((upTo 16).any fun g => (s.gcfg g).on) || ((upTo 8).any s.borrowBusy) || s.lents.any Lent.open_

/-- Values refused under R15 beyond a field's own range: `v` is the whole word written. -/
def State.fieldAllows (s : State) (l : Loc) (v : Nat) (f : Field) (x : Nat) : Bool :=
  match l.ty, l.off with
  | .edg, 0x104 => f.lo != 0 || bit (s.keySlot x).use 1
  | .edgPort, 0x104 =>
    if f.lo == 20 then bit (s.keySlot x).use 2
    else if f.lo == 0 && f.hi == 11 then !bit v 12 || (decide (1 ≤ x) && decide (x ≤ 0xFFE)) else true
  | .grt, off => (off - 0x400) % 0x80 != 4 || decide (off < 0x400) || f.lo != 0
      || decide (x < (if 1 ≤ bits v 16 16 && decide (bits v 16 16 ≤ 4096) then bits v 16 16 else bits (s.reg l.addr) 16 16))
  | _, _ => true

/-- Fields of a register that the state keeps from being written while others may be: REPLAY while EN is set (R275), SLOT
while a checkpoint runs and the write does not cancel it (R373). DESIGN CHOICE, UNSAFE (log 78): the fields of one
CKP_CTRL write act in the order CANCEL, SLOT, ARM, so SLOT is taken beside a CANCEL. -/
def State.fieldShut (s : State) (l : Loc) (v : Nat) (f : Field) : Bool :=
  match l.ty, l.off with
  | .trn, off => decide (0x400 ≤ off) && (off - 0x400) % 0x80 == 4 && f.lo == 2 && s.trnOn ((off - 0x400) / 0x80)
  | .ckp, 0x100 => f.lo == 0 && !bit v 30 && ckpBusy s.ckp.phase
  | _, _ => false

/-- Registers that refuse every write for now: "while EN clear" (R275, R302), while a checkpoint runs (R373), while the
fabric is in use (R341). -/
def State.frozen (s : State) (l : Loc) (r : RegRow) : Bool :=
  match l.ty with
  | .trn => decide (0x400 ≤ l.off) && s.trnOn ((l.off - 0x400) / 0x80)
      && [0x10, 0x14, 0x24, 0x60, 0x64].contains ((l.off - 0x400) % 0x80)
  | .grt => decide (0x400 ≤ l.off) && (s.gcfg ((l.off - 0x400) / 0x80)).on && (l.off - 0x400) % 0x80 != 0 && r.hasRw
  | .ckp =>
    if 0x130 ≤ l.off then s.ckp.phase != .waiting || !s.hostCkp
    else ckpBusy s.ckp.phase && decide (0x108 ≤ l.off) && decide (l.off ≤ 0x124)
  | .edg => (l.off == 0x100 || l.off == 0x104) && s.fabricBusy
  | _ => false

/-! ## What a write does -/

/-- A write on its way: the writer, the place, the merged fields, what to store, and the counter at the access. -/
structure Write where
  who : Writer
  loc : Loc
  m : Merge
  put : Nat
  raw : Nat
  now : Nat
  deriving DecidableEq, Repr

def Write.src (w : Write) : Nat := srcReg w.who.port
def Write.n (w : Write) (stride : Nat) : Nat := (w.loc.off - 0x400) / stride
def Write.store (w : Write) (s : State) : State := setReg w.loc.addr w.put s

def accepted (s : State) : Bool × State := (true, s)

/-- The work that an abort stops has stopped by this time: within 2 µs, at a free time (R56, R57; log entry 55). -/
def State.stoppedBy (s : State) (base : Nat) : Nat := s.tsc.now + min 2000 (Config.abortNs base s.tsc.now)

/-- ABORT of PG_CTRL (R56): every dispatched command that uses the page ends, with code 0x10 (R327). Their work stops by a
time that ABORTING shows. -/
def abortPage (base : Nat) (s : State) : State :=
  match s.cmdIds fun c => c.phase == .dispatched && (s.pagesUsed c.d).contains base with
  | [] => s
  | ids => forEach ids (fun id s => endCommand id .aborted 0x10 0 none s)
      { s with aborts := s.aborts.filter (fun a => decide (s.tsc.now < a.2)) ++ [(base, s.stoppedBy base)] }

/-- R410. -/
def State.modeMayChange (s : State) : PageTy → Bool
  | .trn | .rng => (upTo 16).all fun n => !s.trnOn n
  | .grt => (upTo 16).all fun g => !(s.gcfg g).on
  | .ckp => !ckpBusy s.ckp.phase
  | _ => true

def writeHeader (w : Write) (s : State) : Bool × State :=
  match w.loc.off with
  | 0x08 =>
    if !w.loc.ty.gated then accepted s
    else
      let s := w.store s
      accepted (if bit w.m.act 29 then abortPage w.loc.base s else s)
  | 0x10 =>
    if w.loc.ty.modeMask == 0 then accepted s
    else if s.modeMayChange w.loc.ty then accepted (setReg w.loc.addr (w.raw % (w.loc.ty.modeMask + 1)) s)
    else (false, s)
  | _ => accepted s

def writeSth (w : Write) (s : State) : Bool × State :=
  match w.loc.off with
  | 0x100 => if w.m.bad then (false, s) else writePeriod w.m.word s
  | 0x108 => writeOriginLo w.raw s
  | 0x10C => writeOriginHi w.raw s
  | _ => accepted s

def writeTsc (w : Write) (s : State) : Bool × State :=
  match w.loc.off with
  | 0x108 => accepted (if bit w.m.act 2 then onTsc (fun c => { c with stepped := false }) s else s)
  | 0x114 =>
    let old := s.tscRef
    let s := w.store s
    accepted (if s.tscRef == old then s
      else checkReference (onTsc (fun c => { c with sync := none, delayReq := none, pulse := none }) s))
  | _ => accepted s

/-- A write of a buckle's COUNT crosses what its new value crosses (R201, R281). -/
def writeBuckle (w : Write) (s : State) : Bool × State :=
  let s := w.store s
  accepted (if w.loc.off % 8 == 0 then startNew (crossings ((w.loc.off - 0x1000) / 8) s.tsc.now w.src none s) else s)

def writeSbg (w : Write) (s : State) : Bool × State :=
  if 0x400 ≤ w.loc.off then
    let n := w.n 0x40
    match (w.loc.off - 0x400) % 0x40 with
    | 0x18 =>
      let was := s.schedEn n
      let s := w.store s
      accepted (if was == s.schedEn n then s
        else if was then onSched n (fun c => { c with cleared := true }) s
        else onSched n (fun c => { c with asked := s.schedWords n, sinceEn := 0 }) s)
    | 0x2C => accepted (if bit w.m.act 31 then onSched n (fun c => { c with ovf := false }) s else s)
    | _ => accepted (w.store s)
  else match w.loc.off with
    | 0x130 => if w.m.bad then accepted s else accepted (pageCommand (PgOp.ofCode (bits w.m.act 0 4)) s)
    | 0x174 => accepted (ftlCommand (bits w.m.act 30 2) (bits w.m.act 0 21) s)
    | _ => accepted (w.store s)

/-- TRN_JOB (R242, R275, R442): JOB is written only while EN is clear; the write is refused for it, whatever its value,
and EN takes effect all the same (R15; log entry 57). -/
def writeTrnJob (n v : Nat) (s : State) : Bool × State :=
  let en := bit v 31
  let job := bits v 0 16
  if s.trnOn n then (false, if en then s else disableSlot n s)
  else
    let s := onSlot n (fun t => { t with enabling := none }) (setReg (trnAddr n 0x00) job s)
    if !en then (true, s)
    else if !s.slotMayEnable n job then (false, s)
    else if s.enableWaits n (s.reg64 (trnAddr n 0x10)) then (true, onSlot n (fun t => { t with enabling := some job }) s)
    else (true, enableSlot n job s)

def writeTrn (w : Write) (s : State) : Bool × State :=
  if w.loc.off < 0x400 then accepted (w.store s)
  else
    let n := w.n 0x80
    match (w.loc.off - 0x400) % 0x80 with
    | 0x00 => writeTrnJob n w.raw s
    | 0x04 =>
      let s := w.store s
      accepted (if bit w.m.act 1 then resumeSlot n s else s)
    | 0x08 => closeStep n w.raw s
    | 0x0C => accepted (if bit w.m.act 1 then onSlot n (fun t => { t with diverge := false }) s else s)
    | 0x20 => accepted (writeExp n (bits w.m.word 0 5) (w.store s))
    | 0x24 => accepted (onSlot n (fun t => { t with clean := bits w.m.word 0 16 }) s)
    | _ => accepted (w.store s)

def writeGrt (w : Write) (s : State) : Bool × State :=
  if w.loc.off < 0x400 then accepted s
  else match (w.loc.off - 0x400) % 0x80 with
    | 0x00 => groupCtrl (w.n 0x80) w.raw s.tsc.now w.src s
    | 0x50 => accepted (groupVote (w.n 0x80) w.raw s)
    | _ => accepted (w.store s)

def writeEdg (w : Write) (s : State) : Bool × State :=
  match w.loc.off with
  | 0x110 =>
    let s := w.store s
    accepted (if bit w.m.act 16 then { s with peerReload := true } else s)
  | 0x130 => accepted (closeSession (bits w.m.act 0 24) srcSession s)
  | _ => accepted (w.store s)

/-- EDG_PORT_CFG: EN and REQSEC act at once, RETRAIN retrains (R304, R305, R342). -/
def writePort (w : Write) (s : State) : Bool × State :=
  let p := w.loc.inst
  if w.loc.off != 0x104 then accepted (w.store s)
  else
    let s := watchPlane p w.store s
    accepted (if bit w.m.act 19 || !bit w.put 31 then retrainPort p s else s)

/-- SPR_SUBST with GO names a substitution; one with a value out of range names none (R354). -/
def writeSpr (w : Write) (s : State) : Bool × State :=
  let s := w.store s
  if w.loc.off == 0x11C && bit w.m.act 31 && !w.m.bad then
    substitute (bits w.m.word 16 8) (bits w.m.word 8 2) (bits w.m.word 0 6) s
  else accepted s

/-- CKP_CTRL: CANCEL acts first, then SLOT is placed, then ARM acts (R366, R370). -/
def writeCkp (w : Write) (s : State) : Bool × State :=
  match w.loc.off with
  | 0x100 =>
    let s := if bit w.m.act 30 && ckpBusy s.ckp.phase then ckpCancel s else s
    let s := w.store s
    if !bit w.m.act 31 then accepted s
    else if s.ckpMayArm then accepted (ckpArm s) else (false, s)
  | 0x134 => ckpReleasePage (s.reg 0xB0130 + w.m.act * 2 ^ 32) s
  | 0x138 => if bit w.m.act 0 then ckpDone s else accepted s
  | _ => accepted (w.store s)

/-- BOOT_UPD_CMD is refused while an update is in progress (R385). -/
def writeBoot (w : Write) (s : State) : Bool × State :=
  match w.loc.off with
  | 0x108 => accepted (onKept (fun k => { k with pref := bits w.m.word 2 1 }) s)
  | 0x12C =>
    let op := bits w.m.act 0 2
    if op == 0 then accepted s
    else if s.sec.upd.isSome then (false, s)
    else accepted (onSec (fun c => { c with
      upd := some (if op == 1 then .image w.who.sid (s.reg64 0xC0120, s.reg 0xC0128) else .svn) }) s)
  | _ => accepted (w.store s)

/-- SEC_RESET.GO: the request is sent, and the reset follows 100 µs after the response (R375; `resetAt` is set when the
message's accesses are done). SEC_KS_CMD.GO is refused while a staging is in progress (R394). -/
def writeSec (w : Write) (s : State) : Bool × State :=
  match w.loc.off with
  | 0x110 =>
    if bit w.m.act 0 then
      accepted (note 0x0707 1 s.tsc.now srcSecurity 0 0 w.who.sid (onSec (fun c => { c with resetAt := c.resetAt.or (some 0) }) s))
    else accepted s
  | 0x128 =>
    if !bit w.m.act 0 then accepted s
    else if s.sec.ksBusy.isSome then (false, s)
    else accepted (onSec (fun c => { c with ksBusy := some (w.who.sid, s.reg64 0xD0120) }) s)
  | _ => accepted (w.store s)

def writePwr (w : Write) (s : State) : Bool × State :=
  match w.loc.off with
  | 0x104 => powerRequest (bits w.m.act 0 2) s
  | 0x13C => accepted (onPwr (fun p => { p with alarm := p.alarm - (p.alarm &&& w.m.act) }) s)
  | _ => accepted (w.store s)

/-- MXA_DEBUG.EN written as one extends M3 and is reported (R390, R398). -/
def writeMxa (w : Write) (s : State) : Bool × State :=
  let x := w.loc.inst
  match w.loc.off with
  | 0x10C => accepted (if bit w.m.act 31 then onCl x (fun c => { c with mxaErr := c.mxaErr.clear }) s else s)
  | 0x128 =>
    let s := w.store s
    accepted (if bit w.put 0 then
      note 0x0706 1 s.tsc.now srcSecurity 0 0 (srcCluster x) (extendM 3 7 (sha384 (leBytes 2 (srcCluster x))) s)
    else s)
  | _ => accepted s

def writeDrn (w : Write) (s : State) : Bool × State :=
  let x := w.loc.inst
  match w.loc.off with
  | 0x108 => accepted (onCl x (Cluster.clearDrn w.m.act) s)
  | 0x10C => accepted (if bit w.m.act 1 then onCl x (fun c => { c with run := { c.run with seqErr := false } }) s else s)
  | _ => accepted (w.store s)

def writeLch (w : Write) (s : State) : Bool × State :=
  let x := w.loc.inst
  match w.loc.off with
  | 0x110 => accepted (if bit w.m.act 31 then onCl x (fun c => { c with lchErr := c.lchErr.clear }) s else s)
  | 0x124 => accepted (onCl x (Cluster.clearLch w.m.act) s)
  | _ => accepted s

def writePmc (w : Write) (s : State) : Bool × State :=
  accepted (if w.loc.off == 0x110 && bit w.m.act 31 then onCl w.loc.inst (fun c => { c with pmcErr := c.pmcErr.clear }) s else s)

def writePage (w : Write) (s : State) : Bool × State :=
  if w.loc.off < 0x100 then writeHeader w s
  else match w.loc.ty with
    | .mod | .tst => accepted s
    | .sth => writeSth w s
    | .tsc => writeTsc w s
    | .evt | .rng => accepted (w.store s)
    | .pmcHub => writeBuckle w s
    | .sbg => writeSbg w s
    | .trn => writeTrn w s
    | .grt => writeGrt w s
    | .edg => writeEdg w s
    | .spr => writeSpr w s
    | .ckp => writeCkp w s
    | .boot => writeBoot w s
    | .sec => writeSec w s
    | .pwr => writePwr w s
    | .edgPort => writePort w s
    | .mxa => writeMxa w s
    | .drn => writeDrn w s
    | .lch => writeLch w s
    | .pmc => writePmc w s

/-- Statuses of R331. -/
def stOk : Nat := 0
def stRefused : Nat := 1
def stDenied : Nat := 2
def stNoReg : Nat := 3

/-- A write of a register, and its STATUS. A write of RWL fields is ignored for every class (R412); otherwise the class is
judged first (log entry 32). A write takes no latch away: R69 gives a latch no end but the next read of the _LO register
(log entry 31). -/
def writeLoc (who : Writer) (l : Loc) (v now : Nat) (s : State) : Nat × State :=
  if (l.row.any fun r => r.1.locked) then (stOk, s)
  else if !s.mayWrite who l v then (stDenied, noteDenied who.sid s)
  else match l.row with
  | none => (stOk, s)
  | some (r, _) =>
    if r.inert then (stOk, s)
    else if s.frozen l r then (stRefused, s)
    else
      let m := mergeWord r (s.regWord l now) v (s.fieldShut l v) (s.fieldAllows l v)
      let (ok, s) := writePage ⟨who, l, m, r.store (s.reg l.addr) m.word, v, now⟩ s
      (if ok && !m.bad then stOk else stRefused, s)

/-! ## The accesses of one message (R331, R404, R415, R418) -/

/-- Where the accesses of a message stand on the register buses, in 21sts of a nanosecond after delivery: the time, and
the tree whose bus the last access was on. -/
structure Bus where
  at21 : Nat
  tree : Option Nat
  deriving DecidableEq, Repr

/-- The first access of a message: 600 ns after its delivery, and after every access of the messages before it. -/
def Bus.start (s : State) : Bus := ⟨max 12600 (s.busAt - 21 * s.tsc.now), none⟩

/-- The bus an access occupies. -/
def Loc.tree (l : Loc) : Option Nat :=
  match l.ty with
  | .mxa | .drn | .lch | .pmc | .tst => some (l.inst / 36)
  | _ => none

/-- The bus before an access: a run on a tree's bus begins with 160 ns of transport. -/
def Bus.reach (b : Bus) (tree : Option Nat) : Bus := ⟨if tree.isSome && tree != b.tree then b.at21 + 3360 else b.at21, tree⟩

/-- One cycle of 20/21 ns. -/
def Bus.cycle (b : Bus) : Bus := { b with at21 := b.at21 + 20 }

/-- The counter at an access, to the nearest nanosecond. -/
def Bus.now (b : Bus) (stamp : Nat) : Nat := stamp + (b.at21 + 10) / 21

/-- A held read whose value a write that is ordered after it has changed keeps the value from before it, and latches the
high half from before it (R69, R416, R419). -/
def settleAccess (was : State) (a : HeldAccess) (s : State) : HeldAccess × State :=
  match a.result, a.place with
  | none, some l =>
    let (x, t) := readLoc l was.tsc.now was
    if x == (readLoc l s.tsc.now s).1 then (a, s)
    else ({ a with result := some (BitVec.ofNat 32 x, stOk) },
      { s with latches := match t.latched (l.addr + 4), (l.row.any fun r => r.1.lowHalf) with
          | some h, true => (unlatch (l.addr + 4) s).latches ++ [(l.addr + 4, BitVec.ofNat 32 h)]
          | _, _ => s.latches })
  | _, _ => (a, s)

def settleAccesses (was : State) : List HeldAccess → State → List HeldAccess × State
  | [], s => ([], s)
  | a :: as, s =>
    let (a, s) := settleAccess was a s
    let (as, s) := settleAccesses was as s
    (a :: as, s)

def settleMessages (was : State) : List Held → State → List Held × State
  | [], s => ([], s)
  | h :: hs, s =>
    let (as, s) := settleAccesses was h.accs s
    let (hs, s) := settleMessages was hs s
    ({ h with accs := as } :: hs, s)

/-- The held reads once a write has led from one state to the next. -/
def settleHeld (was now : State) : State :=
  let (hs, s) := settleMessages was now.fwHeld now
  { s with fwHeld := hs }

/-- One access: its result, and the bus after it. `place` is what the address reached at the message's stamp. -/
def access (who : Writer) (write : Bool) (stamp : Nat) (place : Option Loc) (v : Nat) (b : Bus) (s : State) :
    (Reg32 × Nat) × Bus × State :=
  let b := b.reach (place.bind Loc.tree)
  match place with
  | none => ((0, stNoReg), b.cycle, s)
  | some l =>
    if write then
      let (st, t) := writeLoc who l v (b.now stamp) s
      ((0, st), b.cycle, settleHeld s t)
    else
      let (x, s) := readLoc l (b.now stamp) s
      ((BitVec.ofNat 32 x, stOk), b.cycle, s)

/-- The accesses in order; a module that a write has put in OFF performs no more (R430). -/
def accesses (who : Writer) (write : Bool) (stamp : Nat) :
    List (Option Loc × Nat) → Bus → State → List (Reg32 × Nat) × Bus × State
  | [], b, s => ([], b, s)
  | (l, v) :: rest, b, s =>
    if s.pwr.state == .off then ([], b, s)
    else
      let (r, b, s) := access who write stamp l v b s
      let (rs, b, s) := accesses who write stamp rest b s
      (r :: rs, b, s)

/-- REG_RESP, 400 ns after the last access, which is noted for the messages to come (R418); a
reset that a write of this very message has ordered (`go`) begins 100 µs later (R375). -/
def regResponse (go : Bool) (sid rseq base : Nat) (rs : List (Reg32 × Nat)) (b : Bus) (s : State) : State :=
  let s := { s with busAt := 21 * base + b.at21 }
  let s := if go && s.sec.resetAt == some 0 then onSec (fun c => { c with resetAt := some (b.now base + 100400) }) s else s
  sendSession sid (.regResp rseq rs) s

/-- A register message: its accesses and its response. Every access goes through the mapping that holds at the message's
stamp (R404), which the counter shows. -/
def performRegs (who : Writer) (rseq : Nat) (write : Bool) (accs : List RegAccess) (s : State) : State :=
  let places := accs.map fun a => (s.locate a.addr.toNat, a.value.toNat)
  let (rs, b, s) := accesses who write s.tsc.now places (Bus.start s) s
  if s.pwr.state == .off then s else regResponse true who.sid rseq s.tsc.now rs b s

/-- A register message while the firmware restarts: writes take the place in the order that their stamp gives them, reads
and every response wait for the end of the restart (R345, R416, R419). -/
def holdRegs (who : Writer) (rseq : Nat) (write : Bool) (accs : List RegAccess) (s : State) : State :=
  let places := accs.map fun a => (s.locate a.addr.toNat, a.value.toNat)
  if write then
    let due := s.sec.resetAt
    let (rs, _, s) := accesses who true s.tsc.now places (Bus.start s) s
    if s.pwr.state == .off then s
    else { s with fwHeld := s.fwHeld ++ [⟨who.sid, rseq, s.sec.resetAt != due, List.zipWith (fun p r => ⟨p.1, some r⟩) places rs⟩] }
  else
    { s with fwHeld := s.fwHeld ++ [⟨who.sid, rseq, false, places.map fun p =>
      ⟨p.1, if p.1.isNone then some (0, stNoReg) else none⟩⟩] }

/-- The accesses of a held message once the restart is over; the latencies of R418 run from its end. -/
def heldAccesses (base : Nat) : List HeldAccess → Bus → State → List (Reg32 × Nat) × Bus × State
  | [], b, s => ([], b, s)
  | a :: as, b, s =>
    let b := b.reach (a.place.bind Loc.tree)
    let (r, s) := match a.result, a.place with
      | some r, _ => (r, s)
      | none, some l => let (x, s) := readLoc l (b.now base) s; ((BitVec.ofNat 32 x, stOk), s)
      | none, none => ((0, stNoReg), s)
    let (rs, b, s) := heldAccesses base as b.cycle s
    (r :: rs, b, s)

/-- A held message is answered. -/
def performHeld (h : Held) (s : State) : State :=
  let base := s.tsc.now
  let (rs, b, s) := heldAccesses base h.accs (Bus.start s) s
  regResponse h.go h.sid h.rseq base rs b s

end Sys2Proof.Machine
end

