-- ==== Sys2Proof/Machine/Receive.lean ====
section
/-! DEFINITION. Sequenced messages (R313 to R316, R322 to R324): what is dropped, held, delivered and acknowledged, and what
each delivered payload does (R317, R325 to R338, R363). -/

namespace Sys2Proof.Machine

/-! ## Acknowledgement (R323, R335, R368) -/

/-- SEQ values are compared as R201 compares counts. -/
def seqBefore (a b : Nat) : Bool := a != b && decide ((b + 2 ^ 32 - a) % 2 ^ 32 < 2 ^ 31)

/-- What becomes possible when a channel's window opens. -/
def windowOpens (d : Dest) (s : State) : State :=
  match d with
  | .session sid => ckpProgress (evtSweep (flushWaiting sid 256 s))
  | .borrow i =>
    let s := flushModule d 64 (onBorrow i (fun b => { b with lost := false }) s)
    forEach ((s.borrow i).fetches.map (·.1)) (fun g s => askLent i g 64 s) s
  | .lent _ => flushModule d 64 s
  | .reduction _ => flushModule d 1024 s
  | _ => s

/-- Everything below `next` is acknowledged. -/
def ackChannel (d : Dest) (next : Nat) (s : State) : State :=
  if seqBefore (s.chan d).txNext next then s
  else windowOpens d { s with unacked := s.unacked.filter fun u => u.dest != d || !seqBefore u.seq next }

/-! ## Delivery (R322, R324) -/

/-- What a delivered payload does: the port it came through, its network source or module, its SEQ. -/
abbrev Act := (port src seq : Nat) → Msg → State → State

/-- A delivery to a host session: its address is that of the message (R306, R310), its idle time begins anew (R321). -/
def heardFrom (d : Dest) (port src : Nat) (s : State) : State :=
  match d with
  | .session sid => onSession sid (fun x => { x with
      src := src, port := port, since := if x.phase == .open_ then s.tsc.now else x.since }) s
  | _ => s

/-- Deliver the message that is next. -/
def deliver (d : Dest) (act : Act) (port src seq : Nat) (m : Msg) (s : State) : State :=
  let next := (seq + 1) % 2 ^ 32
  act port src seq m (sendAck d next (heardFrom d port src (onChan d (fun c => { c with rxNext := next }) s)))

/-- Deliver held messages while the next one is among them; `fuel` bounds them. -/
def drain (d : Dest) (act : Act) : (fuel : Nat) → State → State
  | 0, s => s
  | fuel + 1, s =>
    let c := s.chan d
    match c.rxHeld.find? fun h => h.1 == c.rxNext with
    | some (q, port, src, _, m) =>
      drain d act fuel (deliver d act port src q m
        (onChan d (fun c => { c with rxHeld := c.rxHeld.filter fun h => h.1 != q }) s))
    | none => s

/-- A sequenced message on a channel: delivered in order, held within the window, dropped beyond it; a duplicate is
acknowledged again. -/
def sequence (d : Dest) (act : Act) (port src seq : Nat) (ack : Option Nat) (m : Msg) (s : State) : State :=
  let s := match ack with
    | some n => ackChannel d n s
    | none => s
  let c := s.chan d
  let ahead := (seq + 2 ^ 32 - c.rxNext) % 2 ^ 32
  if ahead == 0 then drain d act c.rxHeld.length (deliver d act port src seq m s)
  else if ahead < d.window then
    if c.rxHeld.any fun h => h.1 == seq then sendAck d c.rxNext s
    else onChan d (fun c => { c with rxHeld := c.rxHeld ++ [(seq, port, src, ack, m)] }) s
  else if 2 ^ 31 ≤ ahead then sendAck d c.rxNext s
  else s

/-! ## Payloads of host sessions -/

/-- A payload breaks the layout of its class (R316; log entry 16). -/
def msgMalformed (maxp : Nat) : Msg → Bool
  | .cmd flags ds => flags.toNat / 2 != 0 || ds.isEmpty || decide (64 < ds.length) || decide (maxp < 8 + 64 * ds.length)
      || ds.any fun d => d.length != 64
  | .regRead as => as.isEmpty || decide (64 < as.length) || as.any fun a => a.value != 0
  | .regWrite as => as.isEmpty || decide (64 < as.length)
  | .dataWrite _ _ data => decide (8176 < data.length)
  | .eventSub sev flags => decide (3 < sev.toNat) || flags.toNat / 2 != 0
  | _ => false

/-- A JOB session may use the class (R317). -/
def msgForJob : Msg → Bool
  | .close | .cmd _ _ | .abort _ | .regRead _ | .regWrite _ | .dataWrite _ _ _ | .dataRead _ _ | .eventSub _ _ => true
  | _ => false

/-- A class a module out of service still serves (R363). -/
def msgForFatal : Msg → Bool
  | .close | .regRead _ | .eventSub _ _ | .cmd _ _ => true
  | _ => false

/-- The answer to a request that may not be made: DENIED where its response carries a status (R317, R363). -/
def refuseMsg (sid seq : Nat) (m : Msg) (s : State) : State :=
  match m with
  | .regWrite as => sendSession sid (.regResp seq (as.map fun _ => (0, stDenied))) s
  | .dataWrite a _ _ | .dataRead a _ => sendSession sid (.dataResp a.toNat 4 seq []) s
  | .libBegin _ _ _ | .libCommit _ | .libAbort _ => sendLib sid seq 7 s
  | .lendMap _ | .lendEnd _ => sendLendResp sid seq 6 s
  | _ => s

/-! ### Abort (R57, R58, R251, R330) -/

/-- The command of a session that a tag names: the one that has not ended, else the latest (R58). -/
def State.cmdTagged (s : State) (sid tag : Nat) : Option Nat :=
  (s.cmdIds fun c => c.live && c.sid == sid && c.d.tag == tag).getLast?.orElse fun _ =>
    (s.cmdIds fun c => c.sid == sid && c.d.tag == tag).getLast?

/-- RESULT of an ABORT. -/
def State.abortResult (s : State) (id : Option Nat) : Nat :=
  match id.bind fun i => s.cmds[i]? with
  | none => 3
  | some c => match c.phase with
    | .held | .admitted => 0
    | .dispatched => 1
    | .ended .completed => 2
    | .ended _ => 4

def abortTag (x : Session) (port seq tag : Nat) (s : State) : State :=
  let id := s.cmdTagged x.sid tag
  let r := s.abortResult id
  let job := ((id.bind fun i => s.cmds[i]?).map fun c => c.d.job).getD 0
  let s := match id with
    | some i => if r ≤ 1 then endCommand i .aborted r 0 none s else s
    | none => s
  note 0x0103 0 s.tsc.now (srcIngress port) job tag r (sendSession x.sid (.abortResult tag r seq) s)

/-! ### Data (R332, R333, R397) -/

/-- The status of a host transfer before its bytes are considered: the lowest that applies. -/
def State.dataStatus (s : State) (x : Session) (write : Bool) (a n most : Nat) : Nat :=
  let gs := pagesOf a n
  let own := fun (g : Nat) => (s.loadOf x.sid g).isSome
  if a % 32 != 0 || n % 32 != 0 || n == 0 || decide (most < n) || decide (2 ^ 46 < a + n) then 1
  else if gs.any fun g => (s.page g).kind == .unmapped || ((s.page g).loading && !own g) then 2
  else if write && gs.any fun g => (s.page g).readOnly && !(s.page g).loading then 3
  else if s.regionDenies x.cls write a n then 4
  else if !write && s.poisoned a n then 5
  else if write && gs.any fun g => (s.page g).loading
      && !((s.loadOf x.sid g).any fun l => (pageParts a n).all fun p => p.1 != g || readAt 0 l.written g == p.2.1) then 6
  else 0

/-- A failed transfer answers; DENIED is reported too (R398). -/
def failData (x : Session) (seq a st : Nat) (s : State) : State :=
  sendSession x.sid (.dataResp a st seq []) (if st == 4 then noteDenied x.sid s else s)

/-- A write of the first LEN bytes that follow goes on its way to its tier; a load notes how far its pages are written. LEN
is out of range above PLEN − 16, the bytes that follow (R332). -/
def dataWrite (x : Session) (seq a n : Nat) (data : List Byte) (s : State) : State :=
  let st := s.dataStatus x true a n data.length
  if st != 0 then failData x seq a st s
  else
    let loading := fun (l : Load) => l.sid == x.sid && (pagesOf a n).any fun g => (s.page g).loading
    issueWrite a (data.take n) none none (some (x.sid, seq))
      { s with loads := updateWhere loading (noteWritten a n) s.loads }

/-- A read of present pages is answered at once; one that meets an absent page waits for its copy (R219, R226). -/
def dataRead (x : Session) (seq a n : Nat) (s : State) : State :=
  let st := s.dataStatus x false a n (x.maxp - 16)
  if st != 0 then failData x seq a st s
  else
    let s := usePages a n s
    let w : WaitRead := ⟨.session x.sid, seq, a, n⟩
    if s.readable a n || (pagesOf a n).all fun g => (s.page g).present || (s.page g).loading then answerRead w s
    else
      forEach ((pagesOf a n).filter fun g => !(s.page g).present && !(s.page g).loading) fetchPage
        { s with waitReads := s.waitReads ++ [w] }

/-! ### Events (R335) -/

/-- EVENT_SUB: with ON the session is sent every record the log still holds, then those to come. -/
def eventSub (sid sev : Nat) (on : Bool) (s : State) : State :=
  if on then evtSweep (evtPump sid (onSession sid (fun x => { x with sub := some sev, evtNext := 0 }) s))
  else evtSweep (onSession sid (fun x => { x with sub := none }) s)

/-! ### Commands (R326) -/

def ingestAll (x : Session) (port : Nat) (notify : Bool) (ds : List (List Byte)) (s : State) : State :=
  forEach ds (ingest x port notify) s

/-! ### Registers (R331, R345, R419) -/

def Session.writer (x : Session) (port : Nat) : Writer := ⟨x.sid, x.cls, x.slot, x.job, port⟩

/-- A register message, now or held while the firmware restarts. -/
def onRegs (x : Session) (port seq : Nat) (write : Bool) (accs : List RegAccess) (s : State) : State :=
  if s.fwDown.isSome then holdRegs (x.writer port) seq write accs s else performRegs (x.writer port) seq write accs s

/-- A delivered payload of a host session that its class and the module's state allow. -/
def actAllowed (x : Session) (port seq : Nat) (m : Msg) (s : State) : State :=
  match m with
  | .close => closeSession x.sid (srcIngress port) s
  | .cmd flags ds => ingestAll x port (bit flags.toNat 0) ds s
  | .abort tag => abortTag x port seq tag.toNat s
  | .regRead as => onRegs x port seq false as s
  | .regWrite as => onRegs x port seq true as s
  | .dataWrite a n data => dataWrite x seq a.toNat n.toNat data s
  | .dataRead a n => dataRead x seq a.toNat n.toNat s
  | .eventSub sev flags => eventSub x.sid sev.toNat (bit flags.toNat 0) s
  | .libBegin a n h => libBegin x.sid seq a.toNat n.toNat h.toNat s
  | .libCommit a => libCommit x.sid seq a.toNat port s
  | .libAbort a => libAbort x.sid seq a.toNat port s
  | .lendMap r => lendMap x.sid seq r s
  | .lendEnd b => lendEnd x.sid seq b.toNat s
  | _ => s

/-- A message delivered to a session does what its class may do (R317, R363). -/
def actSession (sid : Nat) : Act := fun port _ seq m s =>
  match s.session sid with
  | none => s
  | some x =>
    if (s.spr.fatal && !msgForFatal m) || (x.cls == 2 && !msgForJob m) then refuseMsg sid seq m s else actAllowed x port seq m s

/-- A message arrives on a host session: unknown and pending channels, a DST_MOD of another module and broken payloads are
dropped (R316). DEDUCED (log entry 27): a message of a LINGER session is delivered and acts, since R316 does not drop it,
though R3 speaks of an open session; a PENDING session's only message is PROOF. -/
def receiveHost (h : Hdr) (m : Msg) (s : State) : State :=
  arrive h.t h.port (fun s =>
    let sid := h.chan.toNat
    match s.session sid with
    | none => dropMessage s
    | some x =>
      if x.phase == .pending || !s.forMe (.session sid) h.dst.toNat || msgMalformed x.maxp m then dropMessage s
      else sequence (.session sid) (actSession sid) h.port h.src h.seq.toNat (h.ack.map BitVec.toNat) m s) s

/-! ## Payloads of module channels -/

/-- A delivered reduction message; a module out of service has no effect of it (R363). -/
def actReduction (peer : Nat) : Act := fun _ _ _ m s =>
  if s.spr.fatal then s else
  match m with
  | .redStart r => takeRed peer (.redStart r) s
  | .redData r => takeRed peer (.redData r) s
  | .redFinal r => takeRed peer (.redFinal r) s
  | .redFail n => takeRed peer (.redFail n) s
  | _ => s

/-- A delivered message from a lender. -/
def actBorrow (i : Nat) : Act := fun _ _ _ m s =>
  if s.spr.fatal then s else
  match m with
  | .lendAccept st => lendAccept i st.toNat s
  | .lendData tag st data => lendData i tag.toNat st.toNat data s
  | .lendNotice => lendNotice i s
  | _ => s

/-- A delivered message from a borrower. -/
def actLent (i : Nat) : Act := fun _ _ _ m s =>
  match m with
  | .lendOpen r => if s.spr.fatal then sendModule (.lent i) (.lendAccept 6) s else lendOpen i r s
  | .lendRead a n tag =>
    if s.spr.fatal then sendModule (.lent i) (.lendData tag.toNat 6 []) s else lendRead i a.toNat n.toNat tag.toNat s
  | .lendClose => if s.spr.fatal then s else endLent i s
  | _ => s

/-- The place of a borrower's association: one that is over begins anew with a LEND_OPEN numbered one; a new one takes a
place not in use whose messages are all acknowledged, or a new place, so that every borrower can be answered (R323, R324,
R337; log entry 61). -/
def openLent (m n seq : Nat) (s : State) : Nat × State :=
  let fresh := fun (i : Nat) => (i, onLent i (fun _ => { Lent.reset with borrower := some m, chanId := n })
    { s with unacked := s.unacked.filter (fun u => u.dest != .lent i), queued := s.queued.filter fun q => q.1 != .lent i })
  match s.lentFor m n with
  | some i => if seq == 1 && (s.lent i).ended then fresh i else (i, s)
  | none =>
    match posOf (fun i => ((s.lent i).borrower.isNone || (s.lent i).ended) && s.unackedTo (.lent i) == 0
        && s.queued.all fun q => q.1 != .lent i) (upTo s.lents.length) with
    | some i => fresh i
    | none => (s.lents.length, { s with lents := s.lents ++ [{ Lent.reset with borrower := some m, chanId := n }] })

/-- The channel that a module's message belongs to, with the state once a new association has its place. -/
def State.moduleDest (s : State) (h : MHdr) (m : Msg) : Option Dest × State :=
  let peer := h.srcMod.toNat
  let n := h.chan.toNat - chanLending
  let lend := decide (chanLending ≤ h.chan.toNat) && decide (n < 8)
  match m with
  | .redStart _ | .redData _ | .redFinal _ | .redFail _ =>
    (if h.chan.toNat == chanReduction then some (.reduction peer) else none, s)
  | .lendAccept _ | .lendData _ _ _ | .lendNotice =>
    (if lend && (s.borrow n).lender == some peer then some (.borrow n) else none, s)
  | .lendOpen _ =>
    if !lend then (none, s) else
    let (i, s) := openLent peer n h.seq.toNat s
    (some (.lent i), s)
  | .lendRead _ _ _ | .lendClose => (if lend then (s.lentFor peer n).map .lent else none, s)
  | _ => (none, s)

def actModule (d : Dest) : Act :=
  match d with
  | .reduction m => actReduction m
  | .borrow i => actBorrow i
  | .lent i => actLent i
  | _ => fun _ _ _ _ s => s

/-- A message arrives on a module channel: dropped while the fabric key is not in use, from this module's own number, for
another module, and on a channel that is no association (R315, R316). -/
def receiveModule (h : MHdr) (m : Msg) (s : State) : State :=
  arrive h.t h.port (fun s =>
    let peer := h.srcMod.toNat
    if !s.fabricOn || peer == s.modnum || decide (0xFFFD < peer) || h.dst.toNat != s.modnum then dropMessage s
    else match s.moduleDest h m with
      | (none, _) => dropMessage s
      | (some d, s) => sequence d (actModule d) h.port peer h.seq.toNat (h.ack.map BitVec.toNat) m s) s

/-- The channel an ACK message is for. Where this module both borrows from and lends to a module under one number, it is the
side that waits for an acknowledgement, the borrower's first (log entry 33). -/
def State.ackDest (s : State) (chan src : Nat) : Option Dest :=
  if chan == chanReduction then (if s.fabricOn then some (.reduction src) else none)
  else if chanLending ≤ chan then
    let n := chan - chanLending
    if !s.fabricOn || decide (7 < n) then none
    else
      let b := (s.borrow n).lender == some src
      match s.lentFor src n with
      | some i => if b && decide (0 < s.unackedTo (.borrow n)) then some (.borrow n) else some (.lent i)
      | none => if b then some (.borrow n) else none
  else match s.session chan with
    | some x => if x.phase == .pending then none else some (.session chan)
    | none => none

end Sys2Proof.Machine
end

