-- ==== Sys2Proof/Machine/Messages.lean ====
section
/-! DEFINITION. The commands that are messages: one meaning for each class of R325 that reaches this module, and for each
register write that the table lists as a row of its own, which is a REG_WRITE of one access (R331). -/

namespace Sys2Proof.Machine

/-! ## Message classes -/

def execCmd (h : Hdr) (flags : Byte) (descs : List (List Byte)) (s : State) : Host.Outcome State Fault Refusal :=
  done (receiveHost h (.cmd flags descs) s)

def execAbort (h : Hdr) (tag : Reg32) (s : State) : Host.Outcome State Fault Refusal :=
  done (receiveHost h (.abort tag) s)

def execClose (h : Hdr) (s : State) : Host.Outcome State Fault Refusal := done (receiveHost h .close s)

/-- ACK: it consumes no SEQ, and nothing but what it acknowledges follows (R322, R323). -/
def execAck (h : Hdr) (srcMod : BitVec 16) (s : State) : Host.Outcome State Fault Refusal :=
  done <| arrive h.t h.port (fun s =>
    match s.ackDest h.chan.toNat srcMod.toNat with
    | some d =>
      if !s.forMe d h.dst.toNat then dropMessage s
      else match h.ack with
      | some n => ackChannel d n.toNat s
      | none => s
    | none => dropMessage s) s

def execRegRead (h : Hdr) (accs : List RegAccess) (s : State) : Host.Outcome State Fault Refusal :=
  done (receiveHost h (.regRead accs) s)

def execRegWrite (h : Hdr) (accs : List RegAccess) (s : State) : Host.Outcome State Fault Refusal :=
  done (receiveHost h (.regWrite accs) s)

def execDataWrite (h : Hdr) (addr : Word64) (data : WriteBody) (s : State) : Host.Outcome State Fault Refusal :=
  done (receiveHost h (.dataWrite addr data.len data.bytes) s)

def execDataRead (h : Hdr) (addr : Word64) (len : Reg32) (s : State) : Host.Outcome State Fault Refusal :=
  done (receiveHost h (.dataRead addr len) s)

def execEventSub (h : Hdr) (minSev flags : Byte) (s : State) : Host.Outcome State Fault Refusal :=
  done (receiveHost h (.eventSub minSev flags) s)

def execLibBegin (h : Hdr) (addr : Word64) (count : Reg32) (hint : BitVec 16) (s : State) : Host.Outcome State Fault Refusal :=
  done (receiveHost h (.libBegin addr count hint) s)

def execLibCommit (h : Hdr) (addr : Word64) (s : State) : Host.Outcome State Fault Refusal :=
  done (receiveHost h (.libCommit addr) s)

def execLibAbort (h : Hdr) (addr : Word64) (s : State) : Host.Outcome State Fault Refusal :=
  done (receiveHost h (.libAbort addr) s)

def execLendMap (h : Hdr) (r : LendReq) (s : State) : Host.Outcome State Fault Refusal := done (receiveHost h (.lendMap r) s)

def execLendEnd (h : Hdr) (borrower : BitVec 16) (s : State) : Host.Outcome State Fault Refusal :=
  done (receiveHost h (.lendEnd borrower) s)

def execLendOpen (h : MHdr) (r : LendReq) (s : State) : Host.Outcome State Fault Refusal := done (receiveModule h (.lendOpen r) s)

def execLendAccept (h : MHdr) (status : Byte) (s : State) : Host.Outcome State Fault Refusal :=
  done (receiveModule h (.lendAccept status) s)

def execLendRead (h : MHdr) (laddr : Word64) (len tag : Reg32) (s : State) : Host.Outcome State Fault Refusal :=
  done (receiveModule h (.lendRead laddr len tag) s)

def execLendData (h : MHdr) (tag : Reg32) (status : Byte) (data : List Byte) (s : State) : Host.Outcome State Fault Refusal :=
  done (receiveModule h (.lendData tag status data) s)

def execLendNotice (h : MHdr) (s : State) : Host.Outcome State Fault Refusal := done (receiveModule h .lendNotice s)

def execLendClose (h : MHdr) (s : State) : Host.Outcome State Fault Refusal := done (receiveModule h .lendClose s)

def execRedStart (h : MHdr) (r : RedStart) (s : State) : Host.Outcome State Fault Refusal := done (receiveModule h (.redStart r) s)

def execRedData (h : MHdr) (r : RedData) (s : State) : Host.Outcome State Fault Refusal := done (receiveModule h (.redData r) s)

def execRedFinal (h : MHdr) (r : RedFinal) (s : State) : Host.Outcome State Fault Refusal := done (receiveModule h (.redFinal r) s)

def execRedFail (h : MHdr) (n : InstName) (s : State) : Host.Outcome State Fault Refusal := done (receiveModule h (.redFail n) s)

/-! ## Register writes with a row of their own -/

/-- A REG_WRITE of one access. -/
def writeOne (h : Hdr) (addr v : Nat) (s : State) : Host.Outcome State Fault Refusal :=
  done (receiveHost h (.regWrite [⟨BitVec.ofNat 64 addr, BitVec.ofNat 32 v⟩]) s)

def execSthPeriodWrite (h : Hdr) (v : Reg32) (s : State) : Host.Outcome State Fault Refusal := writeOne h 0x10100 v.toNat s

/-- The write of STH_ORIGIN_HI that completes an origin (R46, R69). -/
def execSthOriginWrite (h : Hdr) (v : Reg32) (s : State) : Host.Outcome State Fault Refusal := writeOne h 0x1010C v.toNat s

def execPmcBklCountWrite (h : Hdr) (n : BitVec 12) (v : Reg32) (s : State) : Host.Outcome State Fault Refusal :=
  writeOne h (0x41000 + 8 * n.toNat) v.toNat s

def execTrnClose (h : Hdr) (slot : Fin 16) (step : Reg32) (s : State) : Host.Outcome State Fault Refusal :=
  writeOne h (trnAddr slot 0x08) step.toNat s

def execTrnSlotEnable (h : Hdr) (slot : Fin 16) (job : BitVec 16) (s : State) : Host.Outcome State Fault Refusal :=
  writeOne h (trnAddr slot 0x00) (2 ^ 31 + job.toNat) s

def execTrnSlotDisable (h : Hdr) (slot : Fin 16) (job : BitVec 16) (s : State) : Host.Outcome State Fault Refusal :=
  writeOne h (trnAddr slot 0x00) job.toNat s

/-- RESUME of TRN_CTRL, REPLAY written as it stands. -/
def execResume (h : Hdr) (slot : Fin 16) (s : State) : Host.Outcome State Fault Refusal :=
  writeOne h (trnAddr slot 0x04) (2 + 4 * b2n (s.trnReplay slot)) s

def execTrnScaleWrite (h : Hdr) (slot : Fin 16) (v : Reg32) (s : State) : Host.Outcome State Fault Refusal :=
  writeOne h (trnAddr slot 0x20) v.toNat s

/-- GRT_GRP_CTRL with EN written as one. -/
def execGrtGroupEnable (h : Hdr) (g : Fin 16) (v : Reg32) (s : State) : Host.Outcome State Fault Refusal :=
  writeOne h (grpAddr g 0x00) (2 ^ 31 + v.toNat % 2 ^ 31) s

def execGrtGrpVote (h : Hdr) (g : Fin 16) (v : Reg32) (s : State) : Host.Outcome State Fault Refusal :=
  writeOne h (grpAddr g 0x50) v.toNat s

/-- SBG_PG_CMD, with the operands its registers hold (R215). -/
def execNop (h : Hdr) (s : State) : Host.Outcome State Fault Refusal := writeOne h 0x50130 0 s
def execMap (h : Hdr) (s : State) : Host.Outcome State Fault Refusal := writeOne h 0x50130 1 s
def execUnmap (h : Hdr) (s : State) : Host.Outcome State Fault Refusal := writeOne h 0x50130 2 s
def execHint (h : Hdr) (s : State) : Host.Outcome State Fault Refusal := writeOne h 0x50130 3 s
def execMove (h : Hdr) (s : State) : Host.Outcome State Fault Refusal := writeOne h 0x50130 4 s
def execQuery (h : Hdr) (s : State) : Host.Outcome State Fault Refusal := writeOne h 0x50130 5 s

def execFtlCmdRelocate (h : Hdr) (block : BitVec 21) (s : State) : Host.Outcome State Fault Refusal :=
  writeOne h 0x50174 (2 ^ 30 + block.toNat) s

def execFtlCmdRetentionScan (h : Hdr) (block : BitVec 21) (s : State) : Host.Outcome State Fault Refusal :=
  writeOne h 0x50174 (2 ^ 31 + block.toNat) s

def execEdgCloseWrite (h : Hdr) (sid : BitVec 24) (s : State) : Host.Outcome State Fault Refusal := writeOne h 0x90130 sid.toNat s

/-- PG_CTRL at `addr`. -/
def execPgCtrlWrite (h : Hdr) (addr : Reg32) (en drain : Bool) (s : State) : Host.Outcome State Fault Refusal :=
  writeOne h addr.toNat (b2n en * 2 ^ 31 + b2n drain * 2 ^ 30) s

/-- PG_CTRL at `addr` with ABORT written as one. -/
def execPgAbort (h : Hdr) (addr : Reg32) (en drain : Bool) (s : State) : Host.Outcome State Fault Refusal :=
  writeOne h addr.toNat (b2n en * 2 ^ 31 + b2n drain * 2 ^ 30 + 2 ^ 29) s

/-- PG_MODE at `addr`. -/
def execPgModeWrite (h : Hdr) (addr v : Reg32) (s : State) : Host.Outcome State Fault Refusal := writeOne h addr.toNat v.toNat s

def execDrnCntClear (h : Hdr) (x : Fin 144) (v : Reg32) (s : State) : Host.Outcome State Fault Refusal :=
  writeOne h (clusterAddr x 1 0x108) v.toNat s

def execLchCntClear (h : Hdr) (x : Fin 144) (v : Reg32) (s : State) : Host.Outcome State Fault Refusal :=
  writeOne h (clusterAddr x 2 0x124) v.toNat s

def execMxaDebugWrite (h : Hdr) (x : Fin 144) (v : Reg32) (s : State) : Host.Outcome State Fault Refusal :=
  writeOne h (clusterAddr x 0 0x128) v.toNat s

def execSprSubst (h : Hdr) (logical : Byte) (tree : Fin 4) (index : BitVec 6) (s : State) : Host.Outcome State Fault Refusal :=
  writeOne h 0xA011C (2 ^ 31 + logical.toNat * 2 ^ 16 + tree.val * 2 ^ 8 + index.toNat) s

def execPeerReload (h : Hdr) (count : BitVec 16) (s : State) : Host.Outcome State Fault Refusal :=
  writeOne h 0x90110 (2 ^ 16 + count.toNat) s

/-- RETRAIN of EDG_PORT_CFG, the other fields written as they stand. -/
def execRetrain (h : Hdr) (port : Fin 8) (s : State) : Host.Outcome State Fault Refusal :=
  writeOne h (portAddr port 0x104) (s.reg (portAddr port 0x104) + 2 ^ 19) s

def execCkpArm (h : Hdr) (slot : Fin 16) (s : State) : Host.Outcome State Fault Refusal := writeOne h 0xB0100 (2 ^ 31 + slot.val) s

/-- CANCEL of CKP_CTRL, SLOT written as it stands. -/
def execCkpCancel (h : Hdr) (s : State) : Host.Outcome State Fault Refusal := writeOne h 0xB0100 (2 ^ 30 + s.ckpSlot) s

def execCkpRelease (h : Hdr) (hi : Reg32) (s : State) : Host.Outcome State Fault Refusal := writeOne h 0xB0134 hi.toNat s
def execCkpDone (h : Hdr) (s : State) : Host.Outcome State Fault Refusal := writeOne h 0xB0138 1 s
def execSecResetGo (h : Hdr) (s : State) : Host.Outcome State Fault Refusal := writeOne h 0xD0110 1 s
def execUpdate (h : Hdr) (s : State) : Host.Outcome State Fault Refusal := writeOne h 0xC012C 1 s
def execCommitSvn (h : Hdr) (s : State) : Host.Outcome State Fault Refusal := writeOne h 0xC012C 2 s
def execSecKsGo (h : Hdr) (s : State) : Host.Outcome State Fault Refusal := writeOne h 0xD0128 1 s
def execPwrReqOn (h : Hdr) (s : State) : Host.Outcome State Fault Refusal := writeOne h 0xE0104 1 s
def execPwrReqIdle (h : Hdr) (s : State) : Host.Outcome State Fault Refusal := writeOne h 0xE0104 2 s
def execPwrReqOff (h : Hdr) (s : State) : Host.Outcome State Fault Refusal := writeOne h 0xE0104 3 s

/-! ## The end of a firmware restart (R345, R384, R419) -/

/-- FW_RESTART_END, at the latest 30 µs after the fault: the restart is reported, then the held messages are answered in
their order and the held MKA exchanges completed. -/
def execFwRestartEnd (t : Nat) (s : State) : Host.Outcome State Fault Refusal :=
  done <|
    match s.fwDown with
    | none => s
    | some f =>
      let s := firmwareBack (tick (min t (f + 30000)) s)
      let s := forEach s.fwHeld performHeld { s with fwHeld := [] }
      forEach s.fwMka mkaSecures { s with fwMka := [] }

end Sys2Proof.Machine
end

