-- ==== Sys2Proof/Machine/Prefetch.lean ====
section
/-! DEFINITION. The stream prefetchers (R198, R199): PFSET, PFWAIT, PFREL and the arrival of a tile. -/

namespace Sys2Proof.Machine

/-- The format of a prefetcher's FMT, and the alignment of its BASE (R82, R198). DESIGN CHOICE, UNSAFE (log 79): binary32
elements at a multiple of four bytes. -/
def pfFmt (code : Nat) : Option (TFmt × Nat) :=
  match TFmt.ofSrc code with
  | some (.blk b) => some (.blk b, 32)
  | some .kx16 => some (.kx16, 2)
  | some .f32 => some (.f32, 4)
  | none => none

/-- Bytes of one ring slot (R197). -/
def Prefetcher.slotBytes (p : Prefetcher) : Nat := (pfFmt p.fmt).elim 0 fun f => f.1.size p.lines 128

/-- The tile-store range of the slot that holds tile n. -/
def Prefetcher.slotAt (p : Prefetcher) (n : Nat) : Nat × Nat := (p.ringBase + n % (max 1 p.ring) * p.slotBytes, p.slotBytes)

/-- The prefetcher that a descriptor describes (R198). Tile n may be read once `relPending` holds an entry for it: the
first RING at once, the others when their slot has been released. -/
def Cluster.pfDesc (c : Cluster) (a cmd : Nat) : Prefetcher :=
  let n := fun o k => c.tsNum (a + o) k
  { active := true, cmd := cmd, base := n 0x00 8, klen := n 0x08 4, fmt := n 0x0C 1, lines := n 0x0E 2, line0 := n 0x10 4
    koff0 := n 0x14 4, count := n 0x18 2, order := n 0x1A 1, ring := n 0x1B 1, ringBase := n 0x1C 4, delivered := 0
    released := 0, failed := false, relPending := (upTo (n 0x1B 1)).map fun m => (m, c.opNext) }

/-- A descriptor the prefetcher takes (R193 PREFETCH, R198): within scratch, its fields valid, its addresses aligned. -/
def Cluster.pfOk (c : Cluster) (a : Nat) (p : Prefetcher) : Bool :=
  decide (a + 32 ≤ c.scratch) && c.tsNum (a + 0x0D) 1 == 0 && p.klen % 32 == 0
    && (p.lines == 64 || p.lines == 128 || p.lines == 256) && p.koff0 % 128 == 0 && decide (1 ≤ p.count)
    && decide (p.order ≤ 1) && decide (1 ≤ p.ring) && decide (p.ring ≤ 16) && p.ringBase % 32 == 0
    && ((pfFmt p.fmt).any fun f => p.base % f.2 == 0)
    && decide (p.ringBase + p.ring * p.slotBytes ≤ c.scratch)

/-- A tile index within the ring's range: from the oldest unreleased tile to that tile plus RING − 1 (R199). -/
def Prefetcher.inRange (p : Prefetcher) (n : Nat) : Bool :=
  p.active && decide (p.released ≤ n) && decide (n < p.released + p.ring)

/-- The oldest unreleased tile after a release; `fuel` bounds the tiles passed. -/
def oldestHeld (p : Prefetcher) : (fuel n : Nat) → Nat
  | 0, n => n
  | fuel + 1, n => if p.relPending.any fun e => e.1 == n + p.ring then oldestHeld p fuel (n + 1) else n

/-- Release tile n, its slot free once every operation below `before` that touches it has taken effect. -/
def Prefetcher.release (n before : Nat) (p : Prefetcher) : Prefetcher :=
  if p.relPending.any fun e => e.1 == n + p.ring then p
  else
    let p := { p with relPending := p.relPending ++ [(n + p.ring, before)] }
    { p with released := oldestHeld p p.ring p.released }

def pfNum (f : FormI) : Nat := f.imm.toNat % 4

def execPfset (p : At) (f : FormI) (s : State) : Host.Outcome State Fault Refusal :=
  done (issue p (opWord 0x3A f.word) false
    (fun s => { sregs := [f.d, f.a], tsR := [(tsAddr (s.sreg p.x p.c f.a).toNat, 32)] })
    (fun id pc s =>
      let a := tsAddr (s.sreg p.x p.c f.a).toNat
      let q := (s.cl p.x).pfDesc a id
      if (s.cl p.x).pfOk a q then nextOp p.x (onCl p.x (Cluster.onPf (pfNum f) fun _ => q) (adv p.x p.c s))
      else failAt p.x p.c 8 pc s) s)

def execPfwait (p : At) (f : FormI) (s : State) : Host.Outcome State Fault Refusal :=
  done (issue p (opWord 0x3B f.word) false (regs3 f.a f.a f.a)
    (fun _ pc s =>
      let n := (s.sreg p.x p.c f.a).toNat
      let q := (s.cl p.x).pf (pfNum f)
      if !q.inRange n then failAt p.x p.c 8 pc s
      else if n < q.delivered then adv p.x p.c s
      else if q.failed then failAt p.x p.c 3 pc s
      else releaseCore p.x p.c (onCtx p.x p.c (fun c => { c with stall := .prefetch (pfNum f) n }) (adv p.x p.c s))) s)

def execPfrel (p : At) (f : FormI) (s : State) : Host.Outcome State Fault Refusal :=
  done (issue p (opWord 0x3C f.word) false (regs3 f.a f.a f.a)
    (fun _ pc s =>
      let n := (s.sreg p.x p.c f.a).toNat
      if !((s.cl p.x).pf (pfNum f)).inRange n then failAt p.x p.c 8 pc s
      else onCl p.x (fun c => c.onPf (pfNum f) (Prefetcher.release n c.opNext)) (adv p.x p.c s)) s)

/-! ## Arrival of a tile -/

/-- The pieces of device memory that tile n is read from: offset in the slot, device address, bytes. What no piece covers
arrives as zero codes and zero scale bytes. -/
def Prefetcher.pieces (p : Prefetcher) (n : Nat) : List (Nat × Nat × Nat) :=
  let k0 := if p.order == 0 then p.koff0 + 128 * n else p.koff0
  let l0 := if p.order == 0 then p.line0 else p.line0 + p.lines * n
  match pfFmt p.fmt with
  | some (.blk b, _) =>
    (upTo p.lines).flatMap fun l => (upTo 4).flatMap fun j =>
      if 32 * j + k0 < p.klen then
        let src := b.place ((l0 + l) * (p.klen / 32) + k0 / 32 + j)
        let dst := b.place (4 * l + j)
        [(dst.1, p.base + src.1, 1), (dst.2, p.base + src.2, b.bytes)]
      else []
  | some (f, _) =>
    let w := if f = .kx16 then 2 else 4
    let m := min 128 (p.klen - k0)
    if m == 0 then [] else (upTo p.lines).map fun l => (w * 128 * l, p.base + w * ((l0 + l) * p.klen + k0), w * m)
  | none => []

/-- Read pieces in order: the bytes with their offsets, or why not. -/
def servePieces (s : State) (job : Nat) : List (Nat × Nat × Nat) → Served × List (Nat × List Byte)
  | [] => (.bytes [] false 0 0, [])
  | (o, a, n) :: rest =>
    match s.serve job a n, servePieces s job rest with
    | .bytes bs si z t, (.bytes _ si' z' t', xs) => (.bytes [] (si || si') (z + z') (t + t'), (o, bs) :: xs)
    | .wait p, (.bytes _ _ _ _, xs) => (.wait p, xs)
    | .bytes _ _ _ _, r => r
    | .wait _, r => r
    | e, _ => (e, [])

/-- An operation below an issue number is still to touch a range of the tile store. -/
def Cluster.touches (c : Cluster) (r : Nat × Nat) (before : Nat) : Bool :=
  (c.arrQ.any fun o => decide (o.n < before) && meets [r] (o.reads ++ o.masks ++ o.writes))
    || (c.emits.any fun e => decide (e.op.n < before) && meets [r] e.op.masks)
    || (c.chainQ.any fun o => decide (o.n < before) && meets [r] (o.reads ++ o.writes))

/-- Tile n may be read: its slot is free, and no earlier write of the command to its bytes is still on its way (R186). -/
def State.pfMayRead (s : State) (x : Nat) (p : Prefetcher) (n : Nat) : Bool :=
  match p.relPending.find? fun e => e.1 == n with
  | some (_, before) =>
    !(s.cl x).touches (p.slotAt n) before
      && !(s.writes.any fun w => w.cmd == some p.cmd && (w.cluster.any fun q => q.1 == x && decide (q.2.2 < before))
        && meets (plain ((p.pieces n).map fun q => (q.2.1, q.2.2, 0))) [(w.addr, w.bytes.length)])
  | none => false

/-- The contexts that wait for a tile of a prefetcher that has failed (R193). -/
def failWaiters (x pf : Nat) (s : State) : State :=
  forEach (upTo 3) (fun k s =>
    let c := (s.cl x).cx k
    match c.cmd, c.stall with
    | some _, .prefetch q _ => if q == pf then programError x k 3 (8 * (c.pc - 1)) s else s
    | _, _ => s) s

/-- PREFETCH_TILE_ARRIVE: the next tile is whole in its slot (R198), read as R226 to R228 and R355 direct. -/
def execPrefetchTileArrive (t : Nat) (x : Fin 144) (pf : Fin 4) (s : State) : Host.Outcome State Fault Refusal :=
  done <|
    let p := (s.cl x).pf pf
    let n := p.delivered
    if !p.active || p.failed || p.count ≤ n || !s.pfMayRead x p n then s
    else
      let now := tick t s
      let job := (s.cmds[p.cmd]?).elim 0 fun c => c.d.job
      match servePieces s job (p.pieces n) with
      | (.noTier, _) | (.poison, _) => failWaiters x pf (onCl x (Cluster.onPf pf fun p => { p with failed := true }) now)
      | (.wait page, _) => fetchPage page s
      | (.bytes _ si z u, xs) =>
        let r := p.slotAt n
        let pages := (p.pieces n).flatMap fun q => pagesOf q.2.1 q.2.2
        let now := { now with convZeroed := sat32 (now.convZeroed + z), convSat := sat32 (now.convSat + u) }
        let now := forEach pages.eraseDups (fun g s => dropOnce (g * pageSize) 1 (usePages (g * pageSize) 1 s)) now
        let now := onCmd p.cmd (fun c => { c with standin := c.standin || si }) now
        onCl x (fun c => ({ c with ts := xs.foldl (fun m q => writeBytes m (r.1 + q.1) q.2)
                                          (clearRange r.1 (r.1 + r.2) c.ts) } : Cluster).onPf pf fun p =>
          { p with delivered := n + 1, relPending := p.relPending.filter fun e => e.1 != n }) now

end Sys2Proof.Machine
end

