-- ==== Sys2Proof/Machine/Training.lean ====
section
/-! DEFINITION. The training steps that happen of themselves (R243, R246, R269): VOTING and RETIRED. -/

namespace Sys2Proof.Machine

/-- STEP_VOTING: the oldest unretired step of a slot, CLOSING with its work ended, forms its flag and votes. -/
def execStepVoting (t : Nat) (slot : Fin 16) (s : State) : Host.Outcome State Fault Refusal :=
  done <|
    match (if s.trnOn slot then s.readyToVote slot else none) with
    | some x => startVote slot x (tick t s)
    | none => s

/-- STEP_RETIRED: the record is written, and a checkpoint armed for the step captures its pages (R269, R272). -/
def execStepRetired (t : Nat) (slot : Fin 16) (s : State) : Host.Outcome State Fault Refusal :=
  done <|
    match (if s.trnOn slot then s.readyToRetire slot else none) with
    | some x => ckpCapture slot x.num (retireStep slot x (tick t s))
    | none => s

end Sys2Proof.Machine
end

