-- ==== Sys2Proof/Machine/Dispatch.lean ====
section
/-! DEFINITION. The dispatch of commands: one arm for each constructor of `Instr`. -/

namespace Sys2Proof.Machine

def exec (i : Instr) (s : State) : Host.Outcome State Fault Refusal :=
  match i with
  | .stitchBoundary slip => Sys2Proof.Machine.execStitchBoundary slip s
  | .adminReserveBegin => Sys2Proof.Machine.execAdminReserveBegin s
  | .cmdLate => Sys2Proof.Machine.execCmdLate s
  | .gridOriginReached => Sys2Proof.Machine.execGridOriginReached s
  | .ptpMessage t port m => Sys2Proof.Machine.execPtpMessage t port m s
  | .ppsInPulse t => Sys2Proof.Machine.execPpsInPulse t s
  | .todFrame t frame => Sys2Proof.Machine.execTodFrame t frame s
  | .evtSequence => Sys2Proof.Machine.execEvtSequence s
  | .cmd h flags descs => Sys2Proof.Machine.execCmd h flags descs s
  | .abort h tag => Sys2Proof.Machine.execAbort h tag s
  | .cmdBegin p => Sys2Proof.Machine.execCmdBegin p s
  | .commandComplete t id measured => Sys2Proof.Machine.execCommandComplete t id measured s
  | .releaseGatePass x => Sys2Proof.Machine.execReleaseGatePass x s
  | .li p f => Sys2Proof.Machine.execLi p f s
  | .add p f => Sys2Proof.Machine.execAdd p f s
  | .addi p f => Sys2Proof.Machine.execAddi p f s
  | .sub p f => Sys2Proof.Machine.execSub p f s
  | .mul p f => Sys2Proof.Machine.execMul p f s
  | .and p f => Sys2Proof.Machine.execAnd p f s
  | .or p f => Sys2Proof.Machine.execOr p f s
  | .xor p f => Sys2Proof.Machine.execXor p f s
  | .shl p f => Sys2Proof.Machine.execShl p f s
  | .shr p f => Sys2Proof.Machine.execShr p f s
  | .sar p f => Sys2Proof.Machine.execSar p f s
  | .ldt p f => Sys2Proof.Machine.execLdt p f s
  | .stt p f => Sys2Proof.Machine.execStt p f s
  | .ldd p f => Sys2Proof.Machine.execLdd p f s
  | .std p f => Sys2Proof.Machine.execStd p f s
  | .beq p f => Sys2Proof.Machine.execBeq p f s
  | .bne p f => Sys2Proof.Machine.execBne p f s
  | .blt p f => Sys2Proof.Machine.execBlt p f s
  | .bltu p f => Sys2Proof.Machine.execBltu p f s
  | .jmp p f => Sys2Proof.Machine.execJmp p f s
  | .setvl p f => Sys2Proof.Machine.execSetvl p f s
  | .mxa p f => Sys2Proof.Machine.execMxa p f s
  | .arrayOpStream t x cycles fence => Sys2Proof.Machine.execArrayOpStream t x cycles fence s
  | .tileEmit t x => Sys2Proof.Machine.execTileEmit t x s
  | .lch p f => Sys2Proof.Machine.execLch p f s
  | .chainPass t x => Sys2Proof.Machine.execChainPass t x s
  | .cmb p f => Sys2Proof.Machine.execCmb p f s
  | .movin p f => Sys2Proof.Machine.execMovin p f s
  | .movout p f => Sys2Proof.Machine.execMovout p f s
  | .pfset p f => Sys2Proof.Machine.execPfset p f s
  | .prefetchTileArrive t x pf => Sys2Proof.Machine.execPrefetchTileArrive t x pf s
  | .pfwait p f => Sys2Proof.Machine.execPfwait p f s
  | .pfrel p f => Sys2Proof.Machine.execPfrel p f s
  | .bwait p f => Sys2Proof.Machine.execBwait p f s
  | .buckleWaitSatisfied p => Sys2Proof.Machine.execBuckleWaitSatisfied p s
  | .bsig p f => Sys2Proof.Machine.execBsig p f s
  | .fence p f => Sys2Proof.Machine.execFence p f s
  | .endCmd p f => Sys2Proof.Machine.execEndCmd p f s
  | .triggerQueuedStart t g entry => Sys2Proof.Machine.execTriggerQueuedStart t g entry s
  | .redStart h r => Sys2Proof.Machine.execRedStart h r s
  | .redData h r => Sys2Proof.Machine.execRedData h r s
  | .redFinal h r => Sys2Proof.Machine.execRedFinal h r s
  | .redFail h n => Sys2Proof.Machine.execRedFail h n s
  | .operandTimeout n level => Sys2Proof.Machine.execOperandTimeout n level s
  | .instanceFailTimeout n => Sys2Proof.Machine.execInstanceFailTimeout n s
  | .voteTimeout slot level => Sys2Proof.Machine.execVoteTimeout slot level s
  | .grtVerdictLost slot => Sys2Proof.Machine.execGrtVerdictLost slot s
  | .stepVoting t slot => Sys2Proof.Machine.execStepVoting t slot s
  | .stepRetired t slot => Sys2Proof.Machine.execStepRetired t slot s
  | .trnClose h slot step => Sys2Proof.Machine.execTrnClose h slot step s
  | .trnSlotEnable h slot job => Sys2Proof.Machine.execTrnSlotEnable h slot job s
  | .trnSlotDisable h slot job => Sys2Proof.Machine.execTrnSlotDisable h slot job s
  | .resume h slot => Sys2Proof.Machine.execResume h slot s
  | .trnScaleWrite h slot v => Sys2Proof.Machine.execTrnScaleWrite h slot v s
  | .grtGroupEnable h g v => Sys2Proof.Machine.execGrtGroupEnable h g v s
  | .grtGrpVote h g v => Sys2Proof.Machine.execGrtGrpVote h g v s
  | .pmcBklCountWrite h n v => Sys2Proof.Machine.execPmcBklCountWrite h n v s
  | .nop h => Sys2Proof.Machine.execNop h s
  | .map h => Sys2Proof.Machine.execMap h s
  | .unmap h => Sys2Proof.Machine.execUnmap h s
  | .hint h => Sys2Proof.Machine.execHint h s
  | .move h => Sys2Proof.Machine.execMove h s
  | .query h => Sys2Proof.Machine.execQuery h s
  | .migrationSwitch t page place => Sys2Proof.Machine.execMigrationSwitch t page place s
  | .pageArrival t page place => Sys2Proof.Machine.execPageArrival t page place s
  | .scheduleDeadline slot entry => Sys2Proof.Machine.execScheduleDeadline slot entry s
  | .ftlRelocation t block failed => Sys2Proof.Machine.execFtlRelocation t block failed s
  | .retentionScan t block retry lastLevel => Sys2Proof.Machine.execRetentionScan t block retry lastLevel s
  | .ftlCmdRelocate h block => Sys2Proof.Machine.execFtlCmdRelocate h block s
  | .ftlCmdRetentionScan h block => Sys2Proof.Machine.execFtlCmdRetentionScan h block s
  | .hello t port src p => Sys2Proof.Machine.execHello t port src p s
  | .proof h p icv => Sys2Proof.Machine.execProof h p icv s
  | .proofReservationExpire sid => Sys2Proof.Machine.execProofReservationExpire sid s
  | .slotLockExpire slot => Sys2Proof.Machine.execSlotLockExpire slot s
  | .close h => Sys2Proof.Machine.execClose h s
  | .sessionIdleTimeout sid => Sys2Proof.Machine.execSessionIdleTimeout sid s
  | .lingerEnd sid => Sys2Proof.Machine.execLingerEnd sid s
  | .edgCloseWrite h sid => Sys2Proof.Machine.execEdgCloseWrite h sid s
  | .ack h srcMod => Sys2Proof.Machine.execAck h srcMod s
  | .retxTimer chan seq => Sys2Proof.Machine.execRetxTimer chan seq s
  | .regRead h accs => Sys2Proof.Machine.execRegRead h accs s
  | .regWrite h accs => Sys2Proof.Machine.execRegWrite h accs s
  | .sthPeriodWrite h v => Sys2Proof.Machine.execSthPeriodWrite h v s
  | .sthOriginWrite h v => Sys2Proof.Machine.execSthOriginWrite h v s
  | .pgCtrlWrite h addr en drain => Sys2Proof.Machine.execPgCtrlWrite h addr en drain s
  | .pgAbort h addr en drain => Sys2Proof.Machine.execPgAbort h addr en drain s
  | .pgModeWrite h addr v => Sys2Proof.Machine.execPgModeWrite h addr v s
  | .drnCntClear h x v => Sys2Proof.Machine.execDrnCntClear h x v s
  | .lchCntClear h x v => Sys2Proof.Machine.execLchCntClear h x v s
  | .mxaDebugWrite h x v => Sys2Proof.Machine.execMxaDebugWrite h x v s
  | .sprSubst h logical tree index => Sys2Proof.Machine.execSprSubst h logical tree index s
  | .peerReload h count => Sys2Proof.Machine.execPeerReload h count s
  | .retrain h port => Sys2Proof.Machine.execRetrain h port s
  | .dataWrite h addr data => Sys2Proof.Machine.execDataWrite h addr data s
  | .dataRead h addr len => Sys2Proof.Machine.execDataRead h addr len s
  | .eventSub h minSev flags => Sys2Proof.Machine.execEventSub h minSev flags s
  | .libBegin h addr count hint => Sys2Proof.Machine.execLibBegin h addr count hint s
  | .libCommit h addr => Sys2Proof.Machine.execLibCommit h addr s
  | .libAbort h addr => Sys2Proof.Machine.execLibAbort h addr s
  | .lendMap h r => Sys2Proof.Machine.execLendMap h r s
  | .lendOpen h r => Sys2Proof.Machine.execLendOpen h r s
  | .lendAccept h status => Sys2Proof.Machine.execLendAccept h status s
  | .lendRead h laddr len tag => Sys2Proof.Machine.execLendRead h laddr len tag s
  | .lendData h tag status data => Sys2Proof.Machine.execLendData h tag status data s
  | .lendEnd h borrower => Sys2Proof.Machine.execLendEnd h borrower s
  | .lendNotice h => Sys2Proof.Machine.execLendNotice h s
  | .lendClose h => Sys2Proof.Machine.execLendClose h s
  | .lendNoticeTimeout index => Sys2Proof.Machine.execLendNoticeTimeout index s
  | .sbgLendLost index => Sys2Proof.Machine.execSbgLendLost index s
  | .attestReq t port src nonce => Sys2Proof.Machine.execAttestReq t port src nonce s
  | .arpRequest t port src target => Sys2Proof.Machine.execArpRequest t port src target s
  | .neighbourSolicitation t port src target => Sys2Proof.Machine.execNeighbourSolicitation t port src target s
  | .echoRequest t port src v6 data => Sys2Proof.Machine.execEchoRequest t port src v6 data s
  | .mkaFrame t port secures => Sys2Proof.Machine.execMkaFrame t port secures s
  | .edgMacsecDown t port => Sys2Proof.Machine.execEdgMacsecDown t port s
  | .edgLinkUp t port working partner => Sys2Proof.Machine.execEdgLinkUp t port working partner s
  | .edgLinkDown t port failed => Sys2Proof.Machine.execEdgLinkDown t port failed s
  | .clusterFault t x code => Sys2Proof.Machine.execClusterFault t x code s
  | .sramCorrect t where_ => Sys2Proof.Machine.execSramCorrect t where_ s
  | .hbmRowRepair t stack pch => Sys2Proof.Machine.execHbmRowRepair t stack pch s
  | .hbmPchSpare t stack pch => Sys2Proof.Machine.execHbmPchSpare t stack pch s
  | .ddrErase t channel rank device => Sys2Proof.Machine.execDdrErase t channel rank device s
  | .sprMemUe t unit source => Sys2Proof.Machine.execSprMemUe t unit source s
  | .girthLaneFault t port => Sys2Proof.Machine.execGirthLaneFault t port s
  | .bridgeAdderFault t bridge => Sys2Proof.Machine.execBridgeAdderFault t bridge s
  | .phaseShed t rail => Sys2Proof.Machine.execPhaseShed t rail s
  | .pllLoss t => Sys2Proof.Machine.execPllLoss t s
  | .firmwareWatchdog t cacheIntact => Sys2Proof.Machine.execFirmwareWatchdog t cacheIntact s
  | .fwRestartEnd t => Sys2Proof.Machine.execFwRestartEnd t s
  | .hubLogicFault t => Sys2Proof.Machine.execHubLogicFault t s
  | .scrubRead t place found => Sys2Proof.Machine.execScrubRead t place found s
  | .ckpArm h slot => Sys2Proof.Machine.execCkpArm h slot s
  | .ckpCancel h => Sys2Proof.Machine.execCkpCancel h s
  | .ckpFirstWrite t write => Sys2Proof.Machine.execCkpFirstWrite t write s
  | .ckpRelease h hi => Sys2Proof.Machine.execCkpRelease h hi s
  | .ckpDone h => Sys2Proof.Machine.execCkpDone h s
  | .secResetGo h => Sys2Proof.Machine.execSecResetGo h s
  | .resetBegin => Sys2Proof.Machine.execResetBegin s
  | .sidebandReset t => Sys2Proof.Machine.execSidebandReset t s
  | .resetRelease => Sys2Proof.Machine.execResetRelease s
  | .firmwareBoot t hbmStacks channels keyStoreOk => Sys2Proof.Machine.execFirmwareBoot t hbmStacks channels keyStoreOk s
  | .update h => Sys2Proof.Machine.execUpdate h s
  | .commitSvn h => Sys2Proof.Machine.execCommitSvn h s
  | .secKsGo h => Sys2Proof.Machine.execSecKsGo h s
  | .senseMate t pwrEn volt restored => Sys2Proof.Machine.execSenseMate t pwrEn volt restored s
  | .sensePart t => Sys2Proof.Machine.execSensePart t s
  | .pwrEnFall t => Sys2Proof.Machine.execPwrEnFall t s
  | .inputOutOfRange t => Sys2Proof.Machine.execInputOutOfRange t s
  | .railUp t => Sys2Proof.Machine.execRailUp t s
  | .railTimeout t => Sys2Proof.Machine.execRailTimeout t s
  | .monitorUpdate t m => Sys2Proof.Machine.execMonitorUpdate t m s
  | .leakDetected t => Sys2Proof.Machine.execLeakDetected t s
  | .cageOvercurrent t port => Sys2Proof.Machine.execCageOvercurrent t port s
  | .pwrReqOn h => Sys2Proof.Machine.execPwrReqOn h s
  | .treesReady t => Sys2Proof.Machine.execTreesReady t s
  | .pwrReqIdle h => Sys2Proof.Machine.execPwrReqIdle h s
  | .pwrReqOff h => Sys2Proof.Machine.execPwrReqOff h s
  | .writeReachesTier t write => Sys2Proof.Machine.execWriteReachesTier t write s
  | .todFrameTimeout => Sys2Proof.Machine.execTodFrameTimeout s
  | .frameDiscard t port macsec => Sys2Proof.Machine.execFrameDiscard t port macsec s
  | .messageDrop t port => Sys2Proof.Machine.execMessageDrop t port s
  | .cageModuleInsertion t port identity => Sys2Proof.Machine.execCageModuleInsertion t port identity s
  | .bootUpdateEnd t flashOk => Sys2Proof.Machine.execBootUpdateEnd t flashOk s
  | .keyStoreStaged t => Sys2Proof.Machine.execKeyStoreStaged t s

end Sys2Proof.Machine
end

