-- ==== Sys2Proof/WellFormed.lean ====
section
/-! DEFINITION. Well-formed commands: the layouts that the messages, frames and fields of a command have. A command that
breaks one is no row of the table as the spec lays it out; what the block does with such a message is R316's rule. -/

namespace Sys2Proof

/-! ## The parts -/

/-- A slip of a short stitch moves the boundary by at most 40 µs (R43). -/
def slipOk (slip : Nat) : Bool := decide (slip ≤ 40000)

def bytesOk (n : Nat) (bs : List Byte) : Bool := bs.length == n

/-- TOD_IN frames have 12 bytes (R429). -/
def frameOk (frame : List Byte) : Bool := bytesOk 12 frame

/-- FLAGS of CMD and EVENT_SUB: only bit 0 is in use (R326, R335). -/
def flagsOk (flags : Byte) : Bool := flags.toNat / 2 == 0

/-- A CMD message carries 1 to 64 descriptors of 64 bytes (R204, R326). -/
def descsOk (descs : List (List Byte)) : Bool :=
  !descs.isEmpty && decide (descs.length ≤ 64) && descs.all fun d => d.length == 64

/-- REG_READ carries 1 to 64 accesses with VALUE zero (R331). -/
def readOk (accs : List RegAccess) : Bool :=
  !accs.isEmpty && decide (accs.length ≤ 64) && accs.all fun a => a.value == 0

/-- REG_WRITE carries 1 to 64 accesses (R331). -/
def writeOk (accs : List RegAccess) : Bool := !accs.isEmpty && decide (accs.length ≤ 64)

/-- A payload of at most 8192 bytes holds at most 8176 bytes of data (R313, R332). -/
def dataOk (data : List Byte) : Bool := decide (data.length ≤ 8176)

/-- Severities (R63). -/
def sevOk (sev : Byte) : Bool := decide (sev.toNat ≤ 3)

/-- A register at a given offset of its page (R401, R406). -/
def addrOk (addr : Reg32) (off : Nat) : Bool := addr.toNat % 0x10000 == off

/-- Jobs (R48, R242). -/
def jobOk (job : BitVec 16) : Bool := decide (1 ≤ job.toNat) && decide (job.toNat ≤ 0xFFFE)

/-- Pages and 32-byte units of the device range (R208, R355). -/
def pageOk (page : Nat) : Bool := decide (page < 2 ^ 25)
def unitOk (unit : Nat) : Bool := decide (unit < 2 ^ 41)

/-- Sources of memory errors: stacks, channels and flash (R61). -/
def memSourceOk (source : BitVec 12) : Bool := decide (0x0A8 ≤ source.toNat) && decide (source.toNat ≤ 0x0CF)

/-- Fault codes of a cluster (R345). -/
def faultCodeOk (code : Byte) : Bool := decide (1 ≤ code.toNat) && decide (code.toNat ≤ 9)

/-- Logical clusters 0 to 127, and physical indices 0 to 35 of a tree (R37). -/
def logicalOk (logical : Byte) : Bool := decide (logical.toNat < 128)
def indexOk (index : BitVec 6) : Bool := decide (index.toNat < 36)

/-- Some lane works (R303). -/
def lanesOk (working : BitVec 4) : Bool := working != 0

/-- Statuses of R338. -/
def lendStatusOk (status : Byte) : Bool := decide (status.toNat ≤ 7)

def Hello.wf (p : Hello) : Bool := p.rsv == 0 && bytesOk 32 p.nh

def RedStart.wf (r : RedStart) : Bool :=
  decide (1 ≤ r.dec.toNat) && decide (r.dec.toNat ≤ 3) && decide (r.rlo.toNat ≤ r.rhi.toNat)
    && r.inmap.length == r.rhi.toNat - r.rlo.toNat + 1

def RedData.wf (r : RedData) : Bool :=
  decide (1 ≤ r.count.toNat) && (r.elems.length == 4 * r.count.toNat || r.elems.length == 8 * r.count.toNat)
    && decide (r.elems.length ≤ 8168)

def RedFinal.wf (r : RedFinal) : Bool := decide (r.vote.toNat < 4)

/-- Lent ranges begin on a page (R337). -/
def LendReq.wf (r : LendReq) : Bool := r.laddr.toNat % 2 ^ 21 == 0 && r.baddr.toNat % 2 ^ 21 == 0

def Measure.wf (m : Measure) : Bool := m.rails.length == 5

def ScrubAt.wf : ScrubAt → Bool
  | .device unit => unitOk unit
  | _ => true

/-! ## The commands -/

/-- A command as the table and the layouts allow it. -/
def Instr.wf : Instr → Bool
  | .stitchBoundary slip => slipOk slip
  | .adminReserveBegin => true
  | .cmdLate => true
  | .gridOriginReached => true
  | .ptpMessage _ _ _ => true
  | .ppsInPulse _ => true
  | .todFrame _t frame => frameOk frame
  | .evtSequence => true
  | .cmd _h flags descs => flagsOk flags && descsOk descs
  | .abort _ _ => true
  | .cmdBegin _ => true
  | .commandComplete _ _ _ => true
  | .releaseGatePass _ => true
  | .li _ _ => true
  | .add _ _ => true
  | .addi _ _ => true
  | .sub _ _ => true
  | .mul _ _ => true
  | .and _ _ => true
  | .or _ _ => true
  | .xor _ _ => true
  | .shl _ _ => true
  | .shr _ _ => true
  | .sar _ _ => true
  | .ldt _ _ => true
  | .stt _ _ => true
  | .ldd _ _ => true
  | .std _ _ => true
  | .beq _ _ => true
  | .bne _ _ => true
  | .blt _ _ => true
  | .bltu _ _ => true
  | .jmp _ _ => true
  | .setvl _ _ => true
  | .mxa _ _ => true
  | .arrayOpStream _ _ _ _ => true
  | .tileEmit _ _ => true
  | .lch _ _ => true
  | .chainPass _ _ => true
  | .cmb _ _ => true
  | .movin _ _ => true
  | .movout _ _ => true
  | .pfset _ _ => true
  | .prefetchTileArrive _ _ _ => true
  | .pfwait _ _ => true
  | .pfrel _ _ => true
  | .bwait _ _ => true
  | .buckleWaitSatisfied _ => true
  | .bsig _ _ => true
  | .fence _ _ => true
  | .endCmd _ _ => true
  | .triggerQueuedStart _ _ _ => true
  | .redStart _h r => r.wf
  | .redData _h r => r.wf
  | .redFinal _h r => r.wf
  | .redFail _h _n => true
  | .operandTimeout _ _ => true
  | .instanceFailTimeout _ => true
  | .voteTimeout _ _ => true
  | .grtVerdictLost _ => true
  | .stepVoting _ _ => true
  | .stepRetired _ _ => true
  | .trnClose _ _ _ => true
  | .trnSlotEnable _h _slot job => jobOk job
  | .trnSlotDisable _ _ _ => true
  | .resume _ _ => true
  | .trnScaleWrite _ _ _ => true
  | .grtGroupEnable _ _ _ => true
  | .grtGrpVote _ _ _ => true
  | .pmcBklCountWrite _ _ _ => true
  | .nop _ => true
  | .map _ => true
  | .unmap _ => true
  | .hint _h => true
  | .move _ => true
  | .query _ => true
  | .migrationSwitch _t page _place => pageOk page
  | .pageArrival _t page _place => pageOk page
  | .scheduleDeadline _ _ => true
  | .ftlRelocation _ _ _ => true
  | .retentionScan _ _ _ _ => true
  | .ftlCmdRelocate _ _ => true
  | .ftlCmdRetentionScan _ _ => true
  | .hello _t _port _src p => p.wf
  | .proof _h p icv => bytesOk 48 p && bytesOk 16 icv
  | .proofReservationExpire _ => true
  | .slotLockExpire _ => true
  | .close _ => true
  | .sessionIdleTimeout _ => true
  | .lingerEnd _ => true
  | .edgCloseWrite _ _ => true
  | .ack _ _ => true
  | .retxTimer _ _ => true
  | .regRead _h accs => readOk accs
  | .regWrite _h accs => writeOk accs
  | .sthPeriodWrite _ _ => true
  | .sthOriginWrite _ _ => true
  | .pgCtrlWrite _h addr _en _drain => addrOk addr 0x08
  | .pgAbort _h addr _en _drain => addrOk addr 0x08
  | .pgModeWrite _h addr _v => addrOk addr 0x10
  | .drnCntClear _ _ _ => true
  | .lchCntClear _ _ _ => true
  | .mxaDebugWrite _ _ _ => true
  | .sprSubst _h logical _tree index => logicalOk logical && indexOk index
  | .peerReload _ _ => true
  | .retrain _ _ => true
  | .dataWrite _h _addr data => dataOk data.bytes
  | .dataRead _ _ _ => true
  | .eventSub _h minSev flags => sevOk minSev && flagsOk flags
  | .libBegin _ _ _ _ => true
  | .libCommit _ _ => true
  | .libAbort _ _ => true
  | .lendMap _h r => r.wf
  | .lendOpen _h r => r.wf
  | .lendAccept _h status => lendStatusOk status
  | .lendRead _ _ _ _ => true
  | .lendData _ _ _ _ => true
  | .lendEnd _ _ => true
  | .lendNotice _ => true
  | .lendClose _ => true
  | .lendNoticeTimeout _ => true
  | .sbgLendLost _ => true
  | .attestReq _t _port _src nonce => bytesOk 48 nonce
  | .arpRequest _ _ _ _ => true
  | .neighbourSolicitation _ _ _ _ => true
  | .echoRequest _ _ _ _ _ => true
  | .mkaFrame _ _ _ => true
  | .edgMacsecDown _ _ => true
  | .edgLinkUp _t _port working _partner => lanesOk working
  | .edgLinkDown _ _ _ => true
  | .clusterFault _t _x code => faultCodeOk code
  | .sramCorrect _ _ => true
  | .hbmRowRepair _ _ _ => true
  | .hbmPchSpare _ _ _ => true
  | .ddrErase _ _ _ _ => true
  | .sprMemUe _t unit source => unitOk unit && memSourceOk source
  | .girthLaneFault _ _ => true
  | .bridgeAdderFault _ _ => true
  | .phaseShed _ _ => true
  | .pllLoss _ => true
  | .firmwareWatchdog _ _ => true
  | .fwRestartEnd _ => true
  | .hubLogicFault _ => true
  | .scrubRead _t place _found => place.wf
  | .ckpArm _ _ => true
  | .ckpCancel _ => true
  | .ckpFirstWrite _ _ => true
  | .ckpRelease _ _ => true
  | .ckpDone _ => true
  | .secResetGo _ => true
  | .resetBegin => true
  | .sidebandReset _ => true
  | .resetRelease => true
  | .firmwareBoot _ _ _ _ => true
  | .update _ => true
  | .commitSvn _ => true
  | .secKsGo _ => true
  | .senseMate _ _ _ _ => true
  | .sensePart _ => true
  | .pwrEnFall _ => true
  | .inputOutOfRange _ => true
  | .railUp _ => true
  | .railTimeout _ => true
  | .monitorUpdate _t m => m.wf
  | .leakDetected _ => true
  | .cageOvercurrent _ _ => true
  | .pwrReqOn _ => true
  | .treesReady _ => true
  | .pwrReqIdle _ => true
  | .pwrReqOff _ => true
  | .writeReachesTier _ _ => true
  | .todFrameTimeout => true
  | .frameDiscard _ _ _ => true
  | .messageDrop _ _ => true
  | .cageModuleInsertion _ _ _ => true
  | .bootUpdateEnd _ _ => true
  | .keyStoreStaged _ => true

end Sys2Proof
end

