-- ==== Sys2Proof/Safety.lean ====
section
/-! DEFINITION. What claims about the block are stated in: the shape that every step keeps, the frames of the commands, and
the conditions under which a message is delivered or an instruction issues. -/

namespace Sys2Proof.Machine

/-! ## The shape of a state -/

/-- Device memory is in its canonical form: addresses rise, and no listed byte is zero (R209, R376). -/
def Memory.wf (m : List (Nat × Byte)) : Bool := Sparse.wf 0 m

/-- A context has thirty-two scalar registers (R183). -/
def Ctx.shaped (c : Ctx) : Bool := c.s.length == 32

/-- A cluster has three contexts (R183); its tile store, output store and vector registers are in canonical form (R20). -/
def Cluster.shaped (c : Cluster) : Bool :=
  c.ctxs.length == 3 && c.ctxs.all Ctx.shaped && Memory.wf c.ts && Memory.wf c.ostore && Memory.wf c.vregs

/-- The keys of a map rise, so that no key is listed twice. -/
def keysRise {α : Type} : List (Nat × α) → Bool
  | [] => true
  | [_] => true
  | a :: b :: m => decide (a.1 < b.1) && keysRise (b :: m)

/-- Canonical memory, rising registers and pages, 144 clusters (R19), eight ports (R303), sixteen training slots (R242),
reduction groups (R276) and schedules (R220), eight associations as a borrower and places for thirty-two as a lender (R230; log entry 61), eight
stacks of HBM and sixteen DDR channels with their repairs (R356, R357), four measurement registers (R390), rising flash
blocks (R234). -/
def State.shaped (s : State) : Bool :=
  Memory.wf s.dev && keysRise s.regs && keysRise s.pages && s.clusters.length == 144 && s.clusters.all Cluster.shaped
    && s.ports.length == 8
    && s.slots.length == 16 && s.groups.length == 16 && s.scheds.length == 16 && s.borrows.length == 8 && decide (32 ≤ s.lents.length)
    && s.spr.hbm.length == 8 && (s.spr.hbm.all fun h => keysRise h.rows) && s.kept.hbmRows.all keysRise
    && s.spr.ddr.length == 16 && s.sec.m.length == 4 && keysRise s.ftl.blocks

/-! ## Frames -/

/-- The counter has reached at least `n` and nothing else of the time-stamp counter changed (R60). -/
def Ticked (n : Nat) (s t : State) : Prop := t.tsc = { s.tsc with now := max s.tsc.now n }

/-- Nothing outside the counter and cluster x changed. -/
def OnlyCluster (x : Nat) (s t : State) : Prop :=
  t = { s with tsc := t.tsc, clusters := t.clusters } ∧ ∀ y, y ≠ x → t.cl y = s.cl y

/-- Nothing outside the counter, context k of cluster x and the cluster's issue counts changed (R185, R207). -/
def OnlyCtx (x k : Nat) (s t : State) : Prop :=
  OnlyCluster x s t ∧ (∀ j, j ≠ k → (t.cl x).cx j = (s.cl x).cx j)
    ∧ t.cl x = { s.cl x with ctxs := (t.cl x).ctxs, last := some k, issued := (s.cl x).issued + 1
                             switches := (t.cl x).switches, holds := (t.cl x).holds }

/-- Nothing but the parts a device write goes through changed: the counter, cluster x, the writes on their way and the
record of page use. -/
def OnlyWrites (x : Nat) (s t : State) : Prop :=
  t = { s with tsc := t.tsc, clusters := t.clusters, writes := t.writes, nextWrite := t.nextWrite, pages := t.pages }
    ∧ ∀ y, y ≠ x → t.cl y = s.cl y

/-! ## An instruction that may issue -/

/-- Context p.c of cluster p.x runs command `id`, stands at the word `w` and is the one the core issues from (R183, R185). -/
structure Stands (p : At) (w id : Nat) (s : State) : Prop where
  shaped : s.shaped = true
  running : ((s.cl p.x).cx p.c).cmd = some id
  turn : s.turn p.x p.c = true
  word : ∃ v, ((s.cl p.x).cx p.c).code[((s.cl p.x).cx p.c).pc]? = some v ∧ v.toNat = w

/-- It stands there, and no earlier operation in flight touches what the instruction touches (R186). -/
def Issues (p : At) (w id : Nat) (touch : Touch) (s : State) : Prop :=
  Stands p w id s ∧ s.hazard p.x p.c touch = false

/-- The program counter, in instructions, `off` instructions on (R189). -/
def State.pcAfter (s : State) (p : At) (off : Int) : Nat := pcWrap (((s.cl p.x).cx p.c).pc + off)

/-! ## A message that is delivered -/

/-- The state once a message has been counted, stamped and its ACK considered (R322, R323, R342). -/
def heard (h : Hdr) (s : State) : State :=
  let s := onPort h.port (fun q => { q with rx := q.rx + 1 }) (tick h.t s)
  match h.ack with
  | some n => ackChannel (.session h.chan.toNat) n.toNat s
  | none => s

/-- The state in which the payload of the next message of a session acts: its SEQ consumed and acknowledged, its source and
port those of the session, its idle time begun anew (R310, R321, R322). -/
def delivered (h : Hdr) (s : State) : State :=
  let sid := h.chan.toNat
  let next := (h.seq.toNat + 1) % 2 ^ 32
  let u := onChan (.session sid) (fun c => { c with rxNext := next }) (heard h s)
  sendAck (.session sid) next (onSession sid (fun x => { x with
    src := h.src, port := h.port, since := if x.phase == .open_ then u.tsc.now else x.since }) u)

/-- The session as the payload finds it. -/
def deliveredSession (h : Hdr) (x : Session) (s : State) : Session :=
  { x with chan := { x.chan with rxNext := (h.seq.toNat + 1) % 2 ^ 32 }, src := h.src, port := h.port
           since := (heard h s).tsc.now }

/-- A message that is the next of the open session `x`, on a port in service, while the module is in service and powered,
its firmware runs and the session's window has room for the answer (R305, R316, R322, R323, R345, R363). -/
structure HostReady (h : Hdr) (x : Session) (s : State) : Prop where
  shaped : s.shaped = true
  link : (s.port h.port).link = true
  serves : s.inService h.port = true
  mine : s.forMe (.session h.chan.toNat) h.dst.toNat = true
  known : (heard h s).session h.chan.toNat = some x
  begun : s.session h.chan.toNat ≠ none ∧ (s.session h.chan.toNat).all (fun y => y.phase == .open_) = true
  opened : x.phase = .open_
  next : x.chan.rxNext = h.seq.toNat
  inOrder : x.chan.rxHeld = []
  room : x.waiting = [] ∧ (heard h s).unackedTo (.session h.chan.toNat) < 256
  notFatal : (heard h s).spr.fatal = false
  firmware : (heard h s).fwDown = none ∧ (heard h s).fwHeld = []
  powered : (heard h s).pwr.state ≠ .off
  noReset : (heard h s).sec.resetAt ≠ some 0

/-- The register buses once one access has been made, of a register of the hub or of a tree (R418). -/
def accessed (tree : Option Nat) (s : State) : State :=
  { s with busAt := 21 * s.tsc.now + ((Bus.start s).reach tree).cycle.at21 }

/-- A register message of one access is answered with a status (R331). -/
def answered (h : Hdr) (x : Session) (st : Nat) (s : State) (tree : Option Nat := none) : State :=
  sendSession x.sid (.regResp h.seq.toNat [(0, st)]) (accessed tree s)

/-- The counter at the one access of a register message (R418). -/
def accessNow (l : Loc) (s : State) : Nat := ((Bus.start s).reach l.tree).now s.tsc.now

/-- The session a message comes through may control the module: not a JOB session (R317, R413). -/
def Session.controls (x : Session) : Prop := x.cls = 1 ∨ x.cls = 3

/-! ## The vocabulary of the statements -/

/-! ## What the instructions of R189 write -/

/-- One scalar instruction: its place and word, the registers it touches, D and the value D takes; `legal` where its reserved
fields are zero. -/
structure ScalarRow where
  p : At
  word : Nat
  legal : Bool
  touched : List Nat
  d : Fin 32
  value : Word64

/-- The rows of R189 that write a register from registers, as the table gives them. -/
def scalarRow (s : State) : Instr → Option ScalarRow
  | .li p f => some ⟨p, opWord 0x01 f.word, true, [f.d, f.d, f.d], f.d, f.imm.signExtend 64⟩
  | .add p f => some ⟨p, opWord 0x02 f.word, f.rsv == 0, [f.d, f.a, f.b], f.d, s.sreg p.x p.c f.a + s.sreg p.x p.c f.b⟩
  | .addi p f => some ⟨p, opWord 0x03 f.word, true, [f.d, f.a, f.a], f.d, s.sreg p.x p.c f.a + f.imm.signExtend 64⟩
  | .sub p f => some ⟨p, opWord 0x04 f.word, f.rsv == 0, [f.d, f.a, f.b], f.d, s.sreg p.x p.c f.a - s.sreg p.x p.c f.b⟩
  | .mul p f => some ⟨p, opWord 0x05 f.word, f.rsv == 0, [f.d, f.a, f.b], f.d, s.sreg p.x p.c f.a * s.sreg p.x p.c f.b⟩
  | .and p f => some ⟨p, opWord 0x06 f.word, f.rsv == 0, [f.d, f.a, f.b], f.d, s.sreg p.x p.c f.a &&& s.sreg p.x p.c f.b⟩
  | .or p f => some ⟨p, opWord 0x07 f.word, f.rsv == 0, [f.d, f.a, f.b], f.d, s.sreg p.x p.c f.a ||| s.sreg p.x p.c f.b⟩
  | .xor p f => some ⟨p, opWord 0x08 f.word, f.rsv == 0, [f.d, f.a, f.b], f.d, s.sreg p.x p.c f.a ^^^ s.sreg p.x p.c f.b⟩
  | .shl p f => some ⟨p, opWord 0x09 f.word, f.rsv == 0, [f.d, f.a, f.b], f.d,
      s.sreg p.x p.c f.a <<< ((s.sreg p.x p.c f.b).setWidth 6).toNat⟩
  | .shr p f => some ⟨p, opWord 0x0A f.word, f.rsv == 0, [f.d, f.a, f.b], f.d,
      s.sreg p.x p.c f.a >>> ((s.sreg p.x p.c f.b).setWidth 6).toNat⟩
  | .sar p f => some ⟨p, opWord 0x0B f.word, f.rsv == 0, [f.d, f.a, f.b], f.d,
      (s.sreg p.x p.c f.a).sshiftRight ((s.sreg p.x p.c f.b).setWidth 6).toNat⟩
  | _ => none

/-- One branch: its place and word, its registers, and by how many instructions the counter moves. -/
structure BranchRow where
  p : At
  word : Nat
  legal : Bool
  touched : List Nat
  by_ : Int

/-- The branches of R189. -/
def branchRow (s : State) : Instr → Option BranchRow
  | .beq p f => some ⟨p, opWord 0x10 f.word, f.rsv == 0, [f.a, f.b, f.b],
      if s.sreg p.x p.c f.a = s.sreg p.x p.c f.b then f.off.toInt else 1⟩
  | .bne p f => some ⟨p, opWord 0x11 f.word, f.rsv == 0, [f.a, f.b, f.b],
      if s.sreg p.x p.c f.a = s.sreg p.x p.c f.b then 1 else f.off.toInt⟩
  | .blt p f => some ⟨p, opWord 0x12 f.word, f.rsv == 0, [f.a, f.b, f.b],
      if (s.sreg p.x p.c f.a).toInt < (s.sreg p.x p.c f.b).toInt then f.off.toInt else 1⟩
  | .bltu p f => some ⟨p, opWord 0x13 f.word, f.rsv == 0, [f.a, f.b, f.b],
      if (s.sreg p.x p.c f.a).toNat < (s.sreg p.x p.c f.b).toNat then f.off.toInt else 1⟩
  | .jmp p f => some ⟨p, opWord 0x14 f.word, f.rsv == 0 && f.a == 0 && f.b == 0, [f.a, f.b, f.b], f.off.toInt⟩
  | _ => none

/-- The context after an instruction that only moves its counter: `off` instructions on, and held by nothing. -/
def State.movedCtx (s : State) (p : At) (off : Int) : Ctx :=
  { (s.cl p.x).cx p.c with pc := s.pcAfter p off, stall := .none }

/-- A command's read of n bytes at a device address that memory serves as it stands: every page in a tier and present, no
unit poisoned, and no stand-in in force for its job (R193, R226, R355). -/
structure PlainRead (a n id : Nat) (s : State) : Prop where
  inTier : s.inTier a n = true
  clean : s.poisoned a n = false
  present : ∀ g ∈ pagesOf a n, (s.page g).present = true
  noStandin : (s.scheds.any fun c => c.on && c.job == ((s.cmds[id]?).elim 0 fun k => k.d.job)
    && c.windows.any fun w => w.outcome == .standin) = false

/-- Nothing but what a device read touches changed: the counter, cluster x, the record of page use and the copies of pages
read once, and the counts of conversions, held at 32 bits. -/
def OnlyRead (x : Nat) (s t : State) : Prop :=
  t = { s with tsc := t.tsc, clusters := t.clusters, pages := t.pages, convZeroed := sat32 s.convZeroed
               convSat := sat32 s.convSat }
    ∧ ∀ y, y ≠ x → t.cl y = s.cl y

/-- What changed of cluster x: the contexts, who issued last, the issue counts, and `ts`. -/
def OnlyTs (x k : Nat) (s t : State) : Prop :=
  t.cl x = { s.cl x with ctxs := (t.cl x).ctxs, last := some k, issued := (s.cl x).issued + 1
                         switches := (t.cl x).switches, holds := (t.cl x).holds, ts := (t.cl x).ts }

/-- Nothing but the counter and cluster x changed, and of cluster x nothing but the contexts, the issue counts and the queues
of its array, its chain and its release gate. -/
def OnlyQueued (x k : Nat) (s t : State) : Prop :=
  OnlyCluster x s t ∧ (∀ j, j ≠ k → (t.cl x).cx j = (s.cl x).cx j)
    ∧ t.cl x = { s.cl x with ctxs := (t.cl x).ctxs, last := some k, issued := (s.cl x).issued + 1
                             switches := (t.cl x).switches, holds := (t.cl x).holds, opNext := (t.cl x).opNext, arrQ := (t.cl x).arrQ
                             chainQ := (t.cl x).chainQ, gate := (t.cl x).gate }

/-- The array operation that MXA or CMB issues from the registers it names (R190, R192). -/
def arrayOpOf (s : State) (p : At) (id : Nat) (cmb : Bool) (w a : Fin 32) (b : Nat) (spill mask : Fin 32) : ArrOp where
  n := (s.cl p.x).opNext
  ctx := p.c
  cmd := id
  pc := 8 * ((s.cl p.x).cx p.c).pc
  cmb := cmb
  word := (s.sreg p.x p.c w).toNat
  a := (s.sreg p.x p.c a).toNat
  b := b
  aux := (s.sreg p.x p.c spill).toNat
  mask := (s.sreg p.x p.c mask).toNat

/-- The chain pass that LCH issues: VL, the scalars and the addresses as they stand at issue (R149, R151, R191). -/
def chainOpOf (s : State) (p : At) (id : Nat) (f : FormLch) : ChainOp where
  n := (s.cl p.x).opNext
  ctx := p.c
  cmd := id
  pc := 8 * ((s.cl p.x).cx p.c).pc
  word := (s.sreg p.x p.c f.w).toNat
  e := min ((s.cl p.x).cx p.c).vl (Ccw.ofWord (s.sreg p.x p.c f.w).toNat).cap
  src := s.sreg p.x p.c f.a
  dst := s.sreg p.x p.c f.b
  va := f.va
  vb := f.vb
  k0 := s.sreg p.x p.c f.k0
  k1 := s.sreg p.x p.c f.k1
  sd := f.sd
  x := s.sreg p.x p.c f.x

/-- A buckle that a command may name: below 4096 and of its job (R193, R200). -/
def State.mayName (s : State) (id b : Nat) : Prop := s.ownBuckle ((s.cmds[id]?).elim 0 fun k => k.d.job) b = true

/-- What the release gate then holds besides: an effect of command `id`, after every operation the context has issued. -/
def State.gated (s : State) (p : At) (id : Nat) (e : Effect) : Gated :=
  ⟨max s.tsc.now p.t, p.c, id, (s.cl p.x).opNext, e⟩

/-! ## Errors of an instruction -/

/-- The fields of an instruction that R189 to R192 make reserved are not all zero. -/
def reservedSet : Instr → Bool
  | .add _ f | .sub _ f | .mul _ f | .and _ f | .or _ f | .xor _ f | .shl _ f | .shr _ f | .sar _ f => f.rsv != 0
  | .movin _ f | .movout _ f | .bwait _ f | .bsig _ f | .fence _ f | .endCmd _ f => f.rsv != 0
  | .setvl _ f => f.rsv != 0 || f.d.val != 0 || f.b.val != 0
  | .beq _ f | .bne _ f | .blt _ f | .bltu _ f => f.rsv != 0
  | .jmp _ f => f.rsv != 0 || f.a.val != 0 || f.b.val != 0
  | .mxa _ f => f.rsv != 0
  | .lch _ f => f.rsv != 0
  | .cmb _ f => f.rsv != 0 || f.b.val != 0
  | _ => false

/-- Command `id`, alive in `s`, has ended on the error `code` that context p.c met at byte offset `pc` (R193): the cluster
records the first error and counts each, the command has the final status PROGRAM_ERROR with the code, the context runs
nothing, and no other command, no register of the block and no byte of device memory has changed. -/
def EndsInError (p : At) (id code pc : Nat) (s t : State) : Prop :=
  (t.cl p.x).pmcErr = (s.cl p.x).pmcErr.add code p.c pc
    ∧ (∃ c, t.cmds[id]? = some c ∧ c.phase = .ended .programError ∧ c.code = code)
    ∧ (∀ j, j ≠ id → t.cmds[j]? = s.cmds[j]?)
    ∧ ((t.cl p.x).cx p.c).cmd = none
    ∧ t.dev = s.dev ∧ t.regs = s.regs ∧ t.pages = s.pages ∧ t.log = s.log

/-- Command `id` has not ended. -/
def Alive (id : Nat) (s : State) : Prop := ∃ c, s.cmds[id]? = some c ∧ c.live = true

/-! ## What an array operation puts into its slot (R122) -/

/-- The slot as the drain begins on it: +0 with FIRST, the tile store with FILL, else what it held. -/
def ArrOp.slotStart (o : ArrOp) (c : Cluster) : List Acc :=
  let w := ArrWord.ofWord o.word
  accsOf w.mode (if w.first then List.replicate w.slotBytes 0
    else if w.fill then c.tsBytes (tsAddr o.aux) w.slotBytes else c.slotBytesAt w)

/-- The columns of the loaded stationary tile, as the cells take them. -/
def ArrOp.columns (o : ArrOp) (st : Stationary) : List Line :=
  let cells := (TFmt.ofFmt (ArrWord.ofWord o.word).fmt).getD .kx16
  (edgeTile cells cells st.trs st.sat st.kvalid 128 (listRd st.bytes)).1

/-- The rows of the streaming tile at B, as the cells take them. -/
def ArrOp.streamed (o : ArrOp) (c : Cluster) : List Line :=
  let w := ArrWord.ofWord o.word
  (edgeTile ((TFmt.ofFmt w.fmt).getD .kx16) ((TFmt.ofFmt w.stored).getD .kx16) w.trm w.sat w.kvalid w.rows
    fun a n => c.tsBytes (tsAddr o.b + a) n).1

/-- The slot value at A that CMB adds. -/
def ArrOp.combined (o : ArrOp) (c : Cluster) : List Acc :=
  let w := ArrWord.ofWord o.word
  accsOf w.mode (c.tsBytes (tsAddr o.a) w.slotBytes)

/-- The slot of operation o holds the accumulators `accs` in the layout of R121, and the rest of the output store what it
held; with SPILL they have gone to the tile store as well, bit for bit. -/
def SlotHolds (o : ArrOp) (accs : List Acc) (c d : Cluster) : Prop :=
  let w := ArrWord.ofWord o.word
  d.ostore = writeBytes c.ostore w.slotRange.1 (accs.flatMap (Acc.bytes w.mode))
    ∧ d.ts = if w.spill then writeBytes c.ts (tsAddr o.aux) (accs.flatMap (Acc.bytes w.mode)) else c.ts

/-- A replay on cluster x has nothing of the command to make without effect (R348). -/
def State.plainGate (s : State) (x id : Nat) : Prop := (s.cl x).toSuppress id = 0 ∧ (s.cl x).replaying id = false

/-- No enabled reduction group holds or makes a trigger: what a buckle's count crosses starts nothing (R281). -/
def State.quietGirth (s : State) : Prop := ∀ g, g < 16 → (s.gcfg g).on = false ∧ (s.group g).queued = []

/-- Nothing of the device waits for a captured page: no result, no verdict and no slot to be enabled (R247, R248, R368). -/
def State.nothingHeld (s : State) : Prop :=
  (∀ g, g < 16 → ∀ i ∈ (s.group g).insts, i.ended.isSome = true)
    ∧ ∀ n, n < 16 → (s.slot n).late = none ∧ (s.slot n).enabling = none

/-! ## Admission -/

/-- Stitch n may take the command of descriptor d that arrives now: its admission is open, it is not before the target nor
before a command of the same stream, and its budget holds the cost on every logical cluster (R50, R51). -/
def State.mayTake (u : State) (d : Desc) (n : Nat) : Prop :=
  (u.onKnown = true ∨ u.openLo ≤ d.target ∨ ∃ c ∈ u.cmds, c.live = true ∧ c.d.job = d.job ∧ c.d.stream = d.stream ∧ u.openLo ≤ c.stitch)
    ∧ u.openLo ≤ n ∧ n ≤ u.openHi ∧ d.target ≤ n ∧ (∀ l ∈ d.logicals, d.cost + u.used l n ≤ u.stitchBudget n)
    ∧ ∀ c ∈ u.cmds, c.live = true → c.d.job = d.job → c.d.stream = d.stream → c.stitch ≤ n

/-- Stitch n is the first that takes it, and no command of its stream is held (R50, R51). -/
structure FirstFit (d : Desc) (n : Nat) (u : State) : Prop where
  takes : u.mayTake d n
  first : ∀ m, m < n → ¬ u.mayTake d m
  order : ∀ c ∈ u.cmds, c.d.job = d.job → c.d.stream = d.stream → c.phase ≠ .held

/-- The slot and step that a descriptor binds to, and whether it waits for the verdict, where it is not discarded (R244). -/
def Bind.bound : Bind → Option (Option (Nat × Nat) × Bool)
  | .free => some (none, false)
  | .work n k => some (some (n, k), false)
  | .update n k false => some (some (n, k), true)
  | _ => none

/-- The command of descriptor d as it stands once admitted to stitch n (R50, R181, R244, R328). -/
def admittedAs (d : Desc) (sid port n : Nat) (notify : Bool) (step : Option (Nat × Nat)) (fenced : Bool) (u : State) : Cmd :=
  { Cmd.fresh d sid port u.tsc.now notify with
    phase := .admitted, stitch := n, charged := true, posted := true, notified := notify, step := step, fenced := fenced
    prods := u.imageProds d.program, codeLen := u.devNum (d.program + 8) 4
    after := (u.writes.filter fun w => w.host.any fun h => h.1 == sid).map (·.id) }

/-! ## Register writes -/

/-- The class of the session permits a write of `v` at `addr` (R317, R412 to R414). -/
def Session.mayWriteAt (x : Session) (h : Hdr) (d : State) (addr v : Nat) : Prop :=
  ∃ l, d.locate addr = some l ∧ d.mayWrite (x.writer h.port) l v = true

/-- Commands admitted to stitch n or later have returned to the hold queue, their budget with them, and no other command
has changed (R46, R50). -/
def HeldFrom (n : Nat) (s t : State) : Prop :=
  t.cmds = s.cmds.map fun c =>
    if c.phase == .admitted && decide (n ≤ c.stitch) then { c with phase := .held, charged := false, posted := true } else c

/-- Every slot but slot n, device memory and the clusters are as they were. -/
def OnlySlot (n : Nat) (s t : State) : Prop :=
  (∀ k, k ≠ n → t.slot k = s.slot k) ∧ t.dev = s.dev ∧ t.clusters = s.clusters

/-! ## A message of a module that is delivered -/

/-- The state once a module's message has been counted and stamped (R322, R342). -/
def arrived (h : MHdr) (s : State) : State := onPort h.port (fun q => { q with rx := q.rx + 1 }) (tick h.t s)

/-- And its ACK considered on channel d (R323). -/
def moduleHeard (h : MHdr) (d : Dest) (s : State) : State :=
  match h.ack with
  | some n => ackChannel d n.toNat s
  | none => s

/-- The state in which its payload acts: its SEQ consumed and acknowledged. -/
def moduleDelivered (h : MHdr) (d : Dest) (s : State) : State :=
  let next := (h.seq.toNat + 1) % 2 ^ 32
  sendAck d next (onChan d (fun c => { c with rxNext := next }) (moduleHeard h d s))

/-- The message `m` is the next of the module channel d, which it finds in `a`, while the fabric key is in use and the module
is in service (R314 to R316, R322, R363). -/
structure ModuleReady (h : MHdr) (m : Msg) (d : Dest) (a s : State) : Prop where
  shaped : s.shaped = true
  link : (s.port h.port).link = true
  serves : s.inService h.port = true
  fabric : s.fabricOn = true
  mine : h.dst.toNat = s.modnum
  foreign : h.srcMod.toNat ≠ s.modnum ∧ h.srcMod.toNat ≤ 0xFFFD
  dest : (arrived h s).moduleDest h m = (some d, a)
  next : ((moduleHeard h d a).chan d).rxNext = h.seq.toNat
  inOrder : ((moduleHeard h d a).chan d).rxHeld = []
  notFatal : (moduleHeard h d a).spr.fatal = false

/-- In `u` group g serves the job of the instance name n, and the sender is its member of rank r, not this module. No
trigger of the verdict's entry is queued, since a table has at most 4095 entries (R276). -/
structure FromMember (h : MHdr) (n : InstName) (g r : Nat) (u : State) : Prop where
  group : u.groupOf n.job.toNat = some g
  rank : u.rankOf (u.gcfg g) h.srcMod.toNat = some r
  other : r ≠ (u.gcfg g).rank
  entry : n.entry.toNat = 0xFFF ∨ n.entry.toNat < (u.gcfg g).entries
  queued : ∀ q ∈ (u.group g).queued, q.1 ≠ 0xFFF

/-- The instance of a name that group g holds. -/
def State.instOf (s : State) (g : Nat) (n : InstName) : Option Inst := (s.group g).inst n.entry.toNat n.k.toNat n.step.toNat

/-- The operand of a rank at an instance. -/
def Inst.operandOf (i : Inst) (r : Nat) : Option Operand := i.operands.find? fun o => o.rank == r

/-- What block b held in `s` lies in `u` in another block of its channel that was free, programmed there and its reads counting
anew, where it held anything and one was free; no third block has changed (R234). -/
def MovedFrom (wear : Bool) (b : Nat) (s u : State) : Prop :=
  match s.moveTarget wear b with
  | some d => d ≠ b ∧ channelOfBlock d = channelOfBlock b ∧ (s.block d).retired = false ∧ (s.block d).programmed = 0
      ∧ u.block d = { s.block d with programmed := 8 * (s.pagesIn b).length, reads := 0 }
      ∧ u.ftl.maps = s.ftl.maps.map (fun e => (e.1, e.2.map fun k => if k == b then d else k))
      ∧ ∀ c, c ≠ b → c ≠ d → u.block c = s.block c
  | none => u.ftl.maps = s.ftl.maps ∧ ∀ c, c ≠ b → u.block c = s.block c

/-- Block b has been relocated and erased, and the relocation counted (R234). -/
def Relocated (wear : Bool) (b : Nat) (s u : State) : Prop :=
  u.block b = { s.block b with erases := (s.block b).erases + 1, reads := 0, programmed := 0 } ∧ MovedFrom wear b s u
    ∧ u.ftl = { s.ftl with blocks := u.ftl.blocks, maps := u.ftl.maps, refreshes := sat32 (s.ftl.refreshes + 1) }

/-- Block b has left service, and the retirement counted (R234, R235). -/
def BlockRetired (b : Nat) (s u : State) : Prop :=
  u.block b = { s.block b with retired := true, programmed := 0 } ∧ MovedFrom false b s u
    ∧ u.ftl = { s.ftl with blocks := u.ftl.blocks, maps := u.ftl.maps, retired := sat32 (s.ftl.retired + 1) }

/-! ## The handshake -/

/-- A frame counted and stamped on a port (R342). -/
def counted (t : Nat) (p : Fin 8) (s : State) : State := onPort p (fun q => { q with rx := q.rx + 1 }) (tick t s)

/-- A port that takes frames from outside any session (R305). -/
structure PortReady (p : Fin 8) (s : State) : Prop where
  shaped : s.shaped = true
  link : (s.port p).link = true
  serves : s.inService p = true

/-- The frame `b` has been sent to the source `src` on the port, and counted there. -/
def Replied (p : Fin 8) (src : Nat) (b : Out) (s t : State) : Prop :=
  t.tx = s.tx ++ [⟨s.tsc.now, some p.val, .host src, none, false, b, s.wire (.host src) none false b⟩] ∧ t.ports = (onPort p (fun q => { q with tx := q.tx + 1 }) s).ports

/-- A PROOF that is wrong: no key in the slot, its ICV does not verify under Ks, or P is not what R318 asks. -/
def State.proofWrong (s : State) (h : Hdr) (x : Session) (p icv : List Byte) : Prop :=
  ∀ key, (s.keySlot x.slot).key = some key →
    icv ≠ hostIcv h 0x03 (x.keyFrom key) p ∨ p ≠ hmac384 key (ascii "EDGIL-OPEN" ++ x.proofBytes)

/-- Session `sid` is gone with what it had not been sent; where no step or instance waits for a checkpoint that ends with
the session, no other session, no command, no register and no byte of device memory has changed (R321, R370). -/
def SessionGone (sid : Nat) (s t : State) : Prop :=
  t.session sid = none ∧ (∀ m ∈ t.unacked, m.dest ≠ .session sid) ∧ (∀ l ∈ t.loads, l.sid ≠ sid)
    ∧ ((ckpBusy s.ckp.phase = true → s.nothingHeld) →
      (∀ k, k ≠ sid → t.session k = s.session k) ∧ t.cmds = s.cmds ∧ t.regs = s.regs ∧ t.dev = s.dev)

/-- A message to d is kept for its acknowledgement, or waits for the window (R323). -/
def Sent (d : Dest) (b : Out) (t : State) : Prop := (∃ m ∈ t.unacked, m.dest = d ∧ m.body = b) ∨ (d, b) ∈ t.queued

/-- An association of the lender is over: it holds no page and no notice, and no page that it held is lent to it (R338). -/
def LendingOver (i : Nat) (s t : State) : Prop :=
  (t.lent i).pages = [] ∧ (t.lent i).notice = none ∧ (∀ k, k ≠ i → t.lent k = s.lent k) ∧ t.dev = s.dev
    ∧ ∀ p ∈ (s.lent i).pages, ∀ g, p.1 ≤ g → g < p.1 + p.2 → i ∉ (t.page g).lentOut

/-! ## Ports, faults and resets -/

/-- Of the ports only port p has changed, and of the rest nothing but the counter, the planes and the event log (R307,
R309), besides the spare-management state. -/
def OnlyPort (p : Nat) (s t : State) : Prop :=
  t = { s with ports := t.ports, tsc := t.tsc, planeLost := t.planeLost, planeBack := t.planeBack, log := t.log, spr := t.spr }
    ∧ ∀ q, q ≠ p → t.port q = s.port q

/-- A fault of a code and source, seen at t, is the last that SPR_LAST names (R345, R371). -/
def FaultSeen (code src t : Nat) (s u : State) : Prop :=
  u.spr.lastCode = code ∧ u.spr.lastSource = src ∧ u.spr.lastTime = max s.tsc.now t ∧ Ticked t s u

/-- No byte of device memory, page, command, cluster or register has changed. -/
def DataStands (s u : State) : Prop :=
  u.dev = s.dev ∧ u.pages = s.pages ∧ u.cmds = s.cmds ∧ u.clusters = s.clusters ∧ u.regs = s.regs

/-- What stands across a reset or a removal of power (R376, R430): LIBRARY pages with their bytes, hints and LOST marks, a pinned
one with its copy, the records of flash, fuses and the boot partition, with a staged key store in effect. Commands, sessions, registers and every other page are gone. -/
structure KeptThrough (s u : State) : Prop where
  gone : u.cmds = [] ∧ u.sessions = [] ∧ u.regs = [] ∧ u.log = EvtLog.reset ∧ u.clusters = clustersAtReset ∧ u.tsc.now = 0
  library : ∀ g, (s.page g).kind = .library → (s.page g).loading = false →
    u.page g = { Page.unmapped with kind := .library, hint := (s.page g).hint, home := (s.page g).home, lost := (s.page g).lost
                                    copies := (s.page g).pinned, stack := (s.page g).stack }
  others : ∀ g, ((s.page g).kind ≠ .library ∨ (s.page g).loading = true) → u.page g = Page.unmapped
  bytes : ∀ a, readAt 0 u.dev a =
    if (s.page (pageOf a)).kind = .library ∧ (s.page (pageOf a)).loading = false then readAt 0 s.dev a else 0
  fuses : u.kept = { s.kept with store := if s.kept.staged.isSome then s.kept.staged else s.kept.store, staged := none }
  flash : u.ftl.retired = s.ftl.retired ∧ (∀ e ∈ u.ftl.maps, e ∈ s.ftl.maps)
    ∧ ((∀ e ∈ s.ftl.maps, (s.page e.1).kind = .library ∧ (s.page e.1).loading = false) →
      u.ftl.blocks = s.ftl.blocks ∧ u.ftl.maps = s.ftl.maps)
  queue : u.pending = s.pending

/-- The module is OFF (R430). -/
def IsOff (pwrEn needCycle : Bool) (s u : State) : Prop :=
  KeptThrough s u ∧ u.pwr.state = .off ∧ u.pwr.pwrEn = pwrEn ∧ u.pwr.needCycle = needCycle ∧ u.pwr.pgood = 0

end Sys2Proof.Machine
end

