-- ==== Sys2Proof/Certificates/Slice0/Obligations.lean ====
section
/-! DEFINITION. The statements about the block: one definition for each, in the order of OBLIGATIONS.json. -/

open Sys2Proof Sys2Proof.Machine

/-- When a command stands at the front of the queue, a step is the execution of that command on the state with the rest of
the queue. The queue itself is the model's. Cites R61. -/
def Obligations.StepRunsFrontCommand : Prop :=
  ∀ (c : Instr) (rest : List Instr) (s : State), s.pending = c :: rest → step s = exec c { s with pending := rest }

/-- On an empty queue a step answers the state unchanged. This is the model's choice (log entry 1): every happening of the
table of steps is a command. Cites R61. -/
def Obligations.StepIdlesOnEmptyQueue : Prop :=
  ∀ s : State, s.pending = [] → step s = .next s

/-- Every command, in every state, is answered with a next state: none ends in a fault or a refusal. Cites R16. -/
def Obligations.EveryCommandAnswersAState : Prop :=
  ∀ (c : Instr) (s : State), ∃ t, exec c s = .next t

/-- Whatever a command does, the queue of waiting commands is the same after it: nothing the block does puts a command in
or takes one out. The queue is the model's. Cites R61. -/
def Obligations.CommandsLeaveTheQueue : Prop :=
  ∀ (c : Instr) (s t : State), exec c s = .next t → t.pending = s.pending

/-- The state after reset has canonical memory and the numbers of clusters, contexts, registers, ports, slots, groups,
schedules and associations that the spec gives. Cites R19, R183, R303, R376. -/
def Obligations.ResetKeepsShape : Prop :=
  State.reset.shaped = true

/-- From every state that has it, a step keeps the shape: device memory in canonical form, 144 clusters of three contexts
with thirty-two registers each, eight ports, sixteen training slots, groups and schedules, and the associations of
lending. Cites R19, R183, R220, R230, R242, R276, R303, R376. -/
def Obligations.StepKeepsShape : Prop :=
  ∀ s t : State, s.shaped = true → step s = .next t → t.shaped = true

/-- After reset the counter and the grid stand at origin 0 with the default period of 1,000,000 ns and no change pending;
no command, session, page or event record is held, device memory reads zero and no unit is poisoned; 128 clusters are
ACTIVE and 16 SPARE, the lowest 32 of each tree ACTIVE. Cites R37, R45, R59, R376. -/
def Obligations.ResetState : Prop :=
  State.reset.tsc.now = 0 ∧ State.reset.tsc.locked = false
    ∧ State.reset.sth.origin = 0 ∧ State.reset.sth.period = 1000000 ∧ State.reset.sth.boundary = 1000000
    ∧ State.reset.sth.change = none
    ∧ State.reset.cmds = [] ∧ State.reset.sessions = [] ∧ State.reset.pages = [] ∧ State.reset.log.held = []
    ∧ (∀ a, readAt 0 State.reset.dev a = 0) ∧ State.reset.poison = []
    ∧ ∀ x : Fin 144, (State.reset.cl x).state = (if x.val % 36 < 32 then ClState.active else ClState.spare)
        ∧ (State.reset.cl x).logical = (if x.val % 36 < 32 then some (32 * (x.val / 36) + x.val % 36) else none)

/-- When its context may issue it and its reserved fields are zero, each of the eleven scalar instructions completes: D
takes the result R189 gives, the counter moves to the next instruction, and nothing else changes: no other register or
context, no other cluster, no byte of any memory, no other part of the block but the issue counts and the time-stamp
counter. Cites R189. -/
def Obligations.ScalarInstructionsWriteTheirResult : Prop :=
  ∀ (i : Instr) (s : State) (r : ScalarRow) (id : Nat), scalarRow s i = some r → r.legal = true →
    Issues r.p r.word id { sregs := r.touched } s →
    ∃ t, exec i s = .next t ∧ Ticked r.p.t s t ∧ OnlyCtx r.p.x r.p.c s t
      ∧ (t.cl r.p.x).cx r.p.c = { s.movedCtx r.p 1 with s := ((s.cl r.p.x).cx r.p.c).s.set r.d.val r.value }

/-- When its context may issue it and its reserved fields are zero, a branch completes: the counter moves by OFF
instructions where the condition holds, by one where it does not, and nothing else changes but the issue counts and
the time-stamp counter. Cites R189. -/
def Obligations.BranchesMoveTheCounter : Prop :=
  ∀ (i : Instr) (s : State) (r : BranchRow) (id : Nat), branchRow s i = some r → r.legal = true →
    Issues r.p r.word id { sregs := r.touched } s →
    ∃ t, exec i s = .next t ∧ Ticked r.p.t s t ∧ OnlyCtx r.p.x r.p.c s t
      ∧ (t.cl r.p.x).cx r.p.c = s.movedCtx r.p r.by_

/-- SETVL gives the context the vector length in A, held to 0xFFFF, which the cluster shows in its LCH_ page; the counter
moves on and nothing else changes. Cites R189. -/
def Obligations.SetvlSetsVectorLength : Prop :=
  ∀ (p : At) (f : FormR) (s : State) (id : Nat), f.rsv = 0 → f.d = 0 → f.b = 0 →
    Issues p (opWord 0x20 f.word) id { sregs := [f.a, f.a, f.a] } s →
    ∃ t, exec (.setvl p f) s = .next t ∧ Ticked p.t s t ∧ OnlyCluster p.x s t
      ∧ (∀ j, j ≠ p.c.val → (t.cl p.x).cx j = (s.cl p.x).cx j)
      ∧ t.cl p.x = { s.cl p.x with ctxs := (t.cl p.x).ctxs, last := some p.c.val, issued := (s.cl p.x).issued + 1
                                   switches := (t.cl p.x).switches, holds := (t.cl p.x).holds, vlSet := min (s.sreg p.x p.c f.a).toNat 0xFFFF }
      ∧ (t.cl p.x).cx p.c = { s.movedCtx p 1 with vl := min (s.sreg p.x p.c f.a).toNat 0xFFFF }

/-- At an address that is a multiple of 8 within the scratch area, LDT gives D the eight bytes of the tile store, least
significant first, and STT stores the eight bytes of D there and no other byte; the counter moves on, and device
memory and the other clusters are untouched. Cites R189, R195. -/
def Obligations.TileStoreLoadsAndStores : Prop :=
  ∀ (p : At) (f : FormI) (s : State) (id a : Nat), a = (s.sreg p.x p.c f.a + f.imm.signExtend 64).toNat % 2 ^ 24 →
    a % 8 = 0 → a + 8 ≤ (s.cl p.x).scratch →
    (Issues p (opWord 0x0C f.word) id { sregs := [f.d, f.a], tsR := [(a, 8)] } s →
      ∃ t, exec (.ldt p f) s = .next t ∧ Ticked p.t s t ∧ OnlyCtx p.x p.c s t
        ∧ (t.cl p.x).cx p.c = { s.movedCtx p 1 with
            s := ((s.cl p.x).cx p.c).s.set f.d.val (BitVec.ofNat 64 (readNum (s.cl p.x).ts a 8)) })
    ∧ (Issues p (opWord 0x0D f.word) id { sregs := [f.d, f.a], tsW := [(a, 8)] } s →
      ∃ t, exec (.stt p f) s = .next t ∧ Ticked p.t s t ∧ OnlyCluster p.x s t
        ∧ (t.cl p.x).cx p.c = s.movedCtx p 1
        ∧ t.cl p.x = { s.cl p.x with ctxs := (t.cl p.x).ctxs, last := some p.c.val, issued := (s.cl p.x).issued + 1
                                     switches := (t.cl p.x).switches, holds := (t.cl p.x).holds, ts := (t.cl p.x).ts }
        ∧ (∀ b, readAt 0 (t.cl p.x).ts b
            = if a ≤ b ∧ b < a + 8 then (s.sreg p.x p.c f.d).extractLsb' (8 * (b - a)) 8 else readAt 0 (s.cl p.x).ts b))

/-- Where memory serves the bytes as they stand, LDD gives D the eight bytes at A + IMM, least significant first, and
MOVIN copies B bytes from device address A to tile-store address D, its length and addresses multiples of 32, within
scratch and no longer than 16 MiB. No byte of device memory changes, and of the tile store only the bytes copied to.
Cites R189, R193. -/
def Obligations.DeviceLoads : Prop :=
  (∀ (p : At) (f : FormI) (s : State) (id a : Nat), a = (s.sreg p.x p.c f.a + f.imm.signExtend 64).toNat → PlainRead a 8 id s →
    Issues p (opWord 0x0E f.word) id { sregs := [f.d, f.a], devR := [(a, 8)] } s →
    ∃ t, exec (.ldd p f) s = .next t ∧ Ticked p.t s t ∧ OnlyRead p.x s t ∧ OnlyTs p.x p.c s t ∧ (t.cl p.x).ts = (s.cl p.x).ts
      ∧ (t.cl p.x).cx p.c = { s.movedCtx p 1 with
          s := ((s.cl p.x).cx p.c).s.set f.d.val (BitVec.ofNat 64 (s.devNum a 8)) })
  ∧ ∀ (p : At) (f : FormR) (s : State) (id ta a n : Nat), f.rsv = 0 → ta = (s.sreg p.x p.c f.d).toNat % 2 ^ 24 →
    a = (s.sreg p.x p.c f.a).toNat → n = (s.sreg p.x p.c f.b).toNat →
    n % 32 = 0 → n ≤ 2 ^ 24 → a % 32 = 0 → ta % 32 = 0 → ta + n ≤ (s.cl p.x).scratch → PlainRead a n id s →
    Issues p (opWord 0x38 f.word) id { sregs := [f.d, f.a, f.b], tsW := [(ta, n)], devR := [(a, n)] } s →
    ∃ t, exec (.movin p f) s = .next t ∧ Ticked p.t s t ∧ OnlyRead p.x s t ∧ OnlyTs p.x p.c s t
      ∧ (t.cl p.x).cx p.c = s.movedCtx p 1
      ∧ ∀ b, readAt 0 (t.cl p.x).ts b
          = if ta ≤ b ∧ b < ta + n then readAt 0 s.dev (a + (b - ta)) else readAt 0 (s.cl p.x).ts b

/-- To pages that programs may write, STD issues the write of the eight bytes of D at A + IMM, and MOVOUT that of B bytes
of the tile store from D to device address A. The write is on its way: it carries its cluster, context and issue
number and its command, and device memory is the same until it reaches its tier. Cites R25, R189, R202, R210. -/
def Obligations.DeviceStores : Prop :=
  (∀ (p : At) (f : FormI) (s : State) (id a : Nat), a = (s.sreg p.x p.c f.a + f.imm.signExtend 64).toNat → s.writable a 8 = true →
    Issues p (opWord 0x0F f.word) id { sregs := [f.d, f.a], devW := [(a, 8)] } s →
    ∃ t, exec (.std p f) s = .next t ∧ Ticked p.t s t ∧ OnlyWrites p.x s t
      ∧ t.writes = s.writes ++ [⟨s.nextWrite, a, leBytes 8 (s.sreg p.x p.c f.d).toNat,
          some (p.x, p.c, (s.cl p.x).opNext), some id, none⟩]
      ∧ t.nextWrite = s.nextWrite + 1 ∧ (t.cl p.x).ts = (s.cl p.x).ts ∧ (t.cl p.x).opNext = (s.cl p.x).opNext + 1
      ∧ (t.cl p.x).cx p.c = s.movedCtx p 1)
  ∧ ∀ (p : At) (f : FormR) (s : State) (id ts a n : Nat), f.rsv = 0 → ts = (s.sreg p.x p.c f.d).toNat % 2 ^ 24 →
    a = (s.sreg p.x p.c f.a).toNat → n = (s.sreg p.x p.c f.b).toNat →
    0 < n → n % 32 = 0 → n ≤ 2 ^ 24 → a % 32 = 0 → ts % 32 = 0 → ts + n ≤ (s.cl p.x).scratch → s.writable a n = true →
    Issues p (opWord 0x39 f.word) id { sregs := [f.d, f.a, f.b], tsR := [(ts, n)], devW := [(a, n)] } s →
    ∃ t, exec (.movout p f) s = .next t ∧ Ticked p.t s t ∧ OnlyWrites p.x s t
      ∧ t.writes = s.writes ++ [⟨s.nextWrite, a, readBytes (s.cl p.x).ts ts n,
          some (p.x, p.c, (s.cl p.x).opNext), some id, none⟩]
      ∧ t.nextWrite = s.nextWrite + 1 ∧ (t.cl p.x).ts = (s.cl p.x).ts ∧ (t.cl p.x).opNext = (s.cl p.x).opNext + 1
      ∧ (t.cl p.x).cx p.c = s.movedCtx p 1

/-- An array operation that meets no error of R117 and, for MXA, agrees with the product table entry it names, joins the
end of the array's queue with its issue number, its context and command, its word and its operands; a chain pass that
meets no error of R155 joins the end of the chain's queue with VL and its scalars as they stand. The context moves on,
and no store or register changes. Cites R117, R155, R189, R190, R191, R192. -/
def Obligations.ArrayAndChainIssue : Prop :=
  (∀ (p : At) (f : FormMxa) (s : State) (id : Nat) (o : ArrOp) (e : Prod), f.rsv = 0 →
    o = arrayOpOf s p id false f.w f.a (s.sreg p.x p.c f.b).toNat f.spill f.mask →
    (s.cmdProds id)[f.prod.val]? = some e → o.issueCode (s.cl p.x).heldAfter = 0 → (ArrWord.ofWord o.word).agrees e = true →
    Issues p (opWord 0x30 f.word) id { sregs := [f.w, f.a, f.b, f.spill, f.mask] } s →
    ∃ t, exec (.mxa p f) s = .next t ∧ Ticked p.t s t ∧ OnlyQueued p.x p.c s t ∧ (t.cl p.x).cx p.c = s.movedCtx p 1
      ∧ (t.cl p.x).arrQ = (s.cl p.x).arrQ ++ [o] ∧ (t.cl p.x).chainQ = (s.cl p.x).chainQ
      ∧ (t.cl p.x).gate = (s.cl p.x).gate ∧ (t.cl p.x).opNext = o.n + 1)
  ∧ (∀ (p : At) (f : FormCmb) (s : State) (id : Nat) (o : ArrOp), f.rsv = 0 → f.b = 0 →
    o = arrayOpOf s p id true f.w f.a 0 f.spill f.mask → o.issueCode (s.cl p.x).heldAfter = 0 →
    Issues p (opWord 0x32 f.word) id { sregs := [f.w, f.a, f.spill, f.mask] } s →
    ∃ t, exec (.cmb p f) s = .next t ∧ Ticked p.t s t ∧ OnlyQueued p.x p.c s t ∧ (t.cl p.x).cx p.c = s.movedCtx p 1
      ∧ (t.cl p.x).arrQ = (s.cl p.x).arrQ ++ [o] ∧ (t.cl p.x).chainQ = (s.cl p.x).chainQ
      ∧ (t.cl p.x).gate = (s.cl p.x).gate ∧ (t.cl p.x).opNext = o.n + 1)
  ∧ ∀ (p : At) (f : FormLch) (s : State) (id : Nat) (o : ChainOp), f.rsv = 0 →
    o = chainOpOf s p id f → o.issueCode = 0 →
    Issues p (opWord 0x31 f.word) id { sregs := [f.w, f.a, f.b, f.k0, f.k1, f.x] } s →
    ∃ t, exec (.lch p f) s = .next t ∧ Ticked p.t s t ∧ OnlyQueued p.x p.c s t ∧ (t.cl p.x).cx p.c = s.movedCtx p 1
      ∧ (t.cl p.x).chainQ = (s.cl p.x).chainQ ++ [o] ∧ (t.cl p.x).arrQ = (s.cl p.x).arrQ
      ∧ (t.cl p.x).gate = (s.cl p.x).gate ∧ (t.cl p.x).opNext = o.n + 1

/-- BWAIT on a buckle of the command's job holds its context until the buckle has reached the threshold, and not at all
where it has; BSIG and END put their effect into the release gate, after every operation the context has issued; FENCE
holds the context until those have taken effect; END stops it. No buckle counts yet. Cites R189, R194, R201, R202,
R344. -/
def Obligations.BucklesFenceAndEnd : Prop :=
  ∀ (p : At) (f : FormR) (s : State) (id : Nat), f.rsv = 0 →
    (s.mayName id (s.sreg p.x p.c f.a).toNat → Issues p (opWord 0x40 f.word) id { sregs := [f.a, f.b, f.b] } s →
      ∃ t, exec (.bwait p f) s = .next t ∧ Ticked p.t s t ∧ OnlyCtx p.x p.c s t
        ∧ (t.cl p.x).cx p.c = { s.movedCtx p 1 with
            stall := if s.waitMet (s.sreg p.x p.c f.a).toNat ((s.sreg p.x p.c f.b).toNat % 2 ^ 32) then .none
              else .buckle (s.sreg p.x p.c f.a).toNat ((s.sreg p.x p.c f.b).toNat % 2 ^ 32) })
    ∧ (s.mayName id (s.sreg p.x p.c f.a).toNat → Issues p (opWord 0x41 f.word) id { sregs := [f.a, f.b, f.b] } s →
      ∃ t, exec (.bsig p f) s = .next t ∧ Ticked p.t s t ∧ OnlyQueued p.x p.c s t ∧ (t.cl p.x).cx p.c = s.movedCtx p 1
        ∧ (t.cl p.x).arrQ = (s.cl p.x).arrQ ∧ (t.cl p.x).chainQ = (s.cl p.x).chainQ ∧ (t.cl p.x).opNext = (s.cl p.x).opNext
        ∧ (t.cl p.x).gate = (s.cl p.x).gate
            ++ [s.gated p id (.signal (s.sreg p.x p.c f.a).toNat ((s.sreg p.x p.c f.b).toNat % 2 ^ 32))])
    ∧ (Issues p (opWord 0x48 f.word) id {} s →
      ∃ t, exec (.fence p f) s = .next t ∧ Ticked p.t s t ∧ OnlyCtx p.x p.c s t
        ∧ (t.cl p.x).cx p.c = { s.movedCtx p 1 with stall := .fence })
    ∧ (Issues p (opWord 0x4F f.word) id {} s →
      ∃ t, exec (.endCmd p f) s = .next t ∧ Ticked p.t s t ∧ OnlyQueued p.x p.c s t
        ∧ (t.cl p.x).cx p.c = { s.movedCtx p 1 with stall := .done }
        ∧ (t.cl p.x).arrQ = (s.cl p.x).arrQ ∧ (t.cl p.x).chainQ = (s.cl p.x).chainQ ∧ (t.cl p.x).opNext = (s.cl p.x).opNext
        ∧ (t.cl p.x).gate = (s.cl p.x).gate ++ [s.gated p id .endCmd])

/-- Where a context stands at a buckle wait that its count satisfies, the wait ends; where it stands at WAIT0 of its
descriptor and that is satisfied, it goes on to WAIT1 if WAIT1 is not. Nothing else changes but the time-stamp
counter; while the wait is not satisfied nothing changes at all. Cites R185, R201, R206. -/
def Obligations.BuckleWaitsEnd : Prop :=
  ∀ (p : At) (s : State) (id : Nat) (c : Cmd), s.shaped = true → ((s.cl p.x).cx p.c).cmd = some id → s.cmds[id]? = some c →
    (∀ b n, ((s.cl p.x).cx p.c).stall = .buckle b n → s.waitMet b n = true →
      ∃ t, exec (.buckleWaitSatisfied p) s = .next t ∧ Ticked p.t s t ∧ OnlyCluster p.x s t
        ∧ t.cl p.x = { s.cl p.x with ctxs := (s.cl p.x).ctxs.set p.c.val { (s.cl p.x).cx p.c with stall := .none } })
    ∧ (∀ w, ((s.cl p.x).cx p.c).stall = .wait0 → c.d.wait0 = some w → s.waitMet w.1 w.2 = true →
      ∃ t, exec (.buckleWaitSatisfied p) s = .next t ∧ Ticked p.t s t ∧ OnlyCluster p.x s t
        ∧ t.cl p.x = { s.cl p.x with ctxs := (s.cl p.x).ctxs.set p.c.val { (s.cl p.x).cx p.c with
            stall := if c.d.wait1.all (fun v => s.waitMet v.1 v.2) then .none else .wait1 } })
    ∧ (∀ w, ((s.cl p.x).cx p.c).stall = .wait1 → c.d.wait1 = some w → s.waitMet w.1 w.2 = true →
      ∃ t, exec (.buckleWaitSatisfied p) s = .next t ∧ Ticked p.t s t ∧ OnlyCluster p.x s t
        ∧ t.cl p.x = { s.cl p.x with ctxs := (s.cl p.x).ctxs.set p.c.val { (s.cl p.x).cx p.c with stall := .none } })
    ∧ (∀ b n, ((s.cl p.x).cx p.c).stall = .buckle b n → s.waitMet b n = false → exec (.buckleWaitSatisfied p) s = .next s)

/-- An instruction with a reserved field that is not zero ends its command with PROGRAM_ERROR and code ILLEGAL, as does a
context that stands at a word whose opcode is reserved; a context whose counter lies outside the code ends it with
PC_RANGE, whichever instruction is tried. Cites R188, R193. -/
def Obligations.IllegalWordsAndCountersEndTheCommand : Prop :=
  ∀ (i : Instr) (p : At) (w id : Nat) (s : State), wordOfInstr i = some (p, w) → Alive id s →
    (Stands p w id s → reservedSet i = true →
      ∃ t, exec i s = .next t ∧ EndsInError p id 1 (8 * ((s.cl p.x).cx p.c).pc) s t)
    ∧ (∀ v, s.shaped = true → ((s.cl p.x).cx p.c).cmd = some id → s.turn p.x p.c = true →
      ((s.cl p.x).cx p.c).code[((s.cl p.x).cx p.c).pc]? = some v → instrOfWord p v.toNat = none →
      ∃ t, exec i s = .next t ∧ EndsInError p id 1 (8 * ((s.cl p.x).cx p.c).pc) s t)
    ∧ (s.shaped = true → ((s.cl p.x).cx p.c).cmd = some id → s.turn p.x p.c = true →
      ((s.cl p.x).cx p.c).code[((s.cl p.x).cx p.c).pc]? = none →
      ∃ t, exec i s = .next t ∧ EndsInError p id 2 (8 * ((s.cl p.x).cx p.c).pc) s t)

/-- A tile-store access of LDT or STT that is misaligned or reaches beyond the scratch area, an LDD from or an STD to a
device address that may not be so used, ends its command with ADDRESS; BWAIT and BSIG on a buckle above 0xFFF or of
another job end it with BUCKLE; PFWAIT and PFREL of a tile out of the ring's range end it with PREFETCH. Cites R193,
R199, R200, R208, R210. -/
def Obligations.OperandErrorsEndTheCommand : Prop :=
  ∀ (p : At) (id pc : Nat) (s : State), Alive id s → pc = 8 * ((s.cl p.x).cx p.c).pc →
    (∀ (f : FormI) (a : Nat), a = (s.sreg p.x p.c f.a + f.imm.signExtend 64).toNat →
      (a % 2 ^ 24 % 8 ≠ 0 ∨ (s.cl p.x).scratch < a % 2 ^ 24 + 8 →
        (Issues p (opWord 0x0C f.word) id { sregs := [f.d, f.a], tsR := [(a % 2 ^ 24, 8)] } s →
          ∃ t, exec (.ldt p f) s = .next t ∧ EndsInError p id 3 pc s t)
        ∧ (Issues p (opWord 0x0D f.word) id { sregs := [f.d, f.a], tsW := [(a % 2 ^ 24, 8)] } s →
          ∃ t, exec (.stt p f) s = .next t ∧ EndsInError p id 3 pc s t))
      ∧ (s.inTier a 8 = false → Issues p (opWord 0x0E f.word) id { sregs := [f.d, f.a], devR := [(a, 8)] } s →
          ∃ t, exec (.ldd p f) s = .next t ∧ EndsInError p id 3 pc s t)
      ∧ (s.writable a 8 = false → Issues p (opWord 0x0F f.word) id { sregs := [f.d, f.a], devW := [(a, 8)] } s →
          ∃ t, exec (.std p f) s = .next t ∧ EndsInError p id 3 pc s t)
      ∧ (((s.cl p.x).pf (f.imm.toNat % 4)).inRange (s.sreg p.x p.c f.a).toNat = false →
        (Issues p (opWord 0x3B f.word) id { sregs := [f.a, f.a, f.a] } s →
          ∃ t, exec (.pfwait p f) s = .next t ∧ EndsInError p id 8 pc s t)
        ∧ (Issues p (opWord 0x3C f.word) id { sregs := [f.a, f.a, f.a] } s →
          ∃ t, exec (.pfrel p f) s = .next t ∧ EndsInError p id 8 pc s t)))
    ∧ ∀ f : FormR, f.rsv = 0 → ¬ s.mayName id (s.sreg p.x p.c f.a).toNat →
      (Issues p (opWord 0x40 f.word) id { sregs := [f.a, f.b, f.b] } s →
        ∃ t, exec (.bwait p f) s = .next t ∧ EndsInError p id 7 pc s t)
      ∧ (Issues p (opWord 0x41 f.word) id { sregs := [f.a, f.b, f.b] } s →
        ∃ t, exec (.bsig p f) s = .next t ∧ EndsInError p id 7 pc s t)

/-- While it is not its context's turn, while the context stands at another word, or while an earlier operation of the
context still in flight touches what a scalar instruction touches, the instruction changes nothing at all. That an
instruction out of its turn, at another word or with a hazard answers the state as it was is the model's choice (log
entry 4, DESIGN CHOICE), and so is whose turn it is where R185 leaves it open (log entry 30). Cites R185, R186. -/
def Obligations.InstructionsWaitForWhatTheyTouch : Prop :=
  ∀ (i : Instr) (p : At) (w : Nat) (s : State), wordOfInstr i = some (p, w) →
    (s.turn p.x p.c = false → exec i s = .next s)
    ∧ (∀ v, ((s.cl p.x).cx p.c).code[((s.cl p.x).cx p.c).pc]? = some v → (instrOfWord p v.toNat).isSome = true →
        v.toNat ≠ w → exec i s = .next s)
    ∧ (∀ (r : ScalarRow) (id : Nat), scalarRow s i = some r → r.legal = true → Stands p w id s →
        s.hazard p.x p.c { sregs := r.touched } = true → exec i s = .next s)

/-- For every instruction of R189, at every place and with every value of its registers, immediate, offset, product number
and reserved bits, the instruction that its word spells is that instruction; and every 64-bit word that spells an
instruction is the word of that instruction. Cites R188, R189, R190, R191, R192. -/
def Obligations.PommelWordsRoundTrip : Prop :=
  (∀ (i : Instr) (p : At) (w : Nat), wordOfInstr i = some (p, w) → w < 2 ^ 64 ∧ instrOfWord p w = some i)
    ∧ ∀ (i : Instr) (p : At) (w : Nat), w < 2 ^ 64 → instrOfWord p w = some i → wordOfInstr i = some (p, w)

/-- PFSET with a valid descriptor starts the prefetcher it names afresh; PFWAIT on a delivered tile goes on, and on one
still to come holds the context; PFREL gives the tile's ring slot back once the operations issued before it have taken
effect. Of the cluster nothing else changes but its contexts and issue counts, and of the block nothing. Cites R189,
R198, R199. -/
def Obligations.PrefetchInstructions : Prop :=
  ∀ (p : At) (f : FormI) (s : State) (id n k : Nat), n = (s.sreg p.x p.c f.a).toNat → k = f.imm.toNat % 4 →
    ((s.cl p.x).pfOk (n % 2 ^ 24) ((s.cl p.x).pfDesc (n % 2 ^ 24) id) = true →
      Issues p (opWord 0x3A f.word) id { sregs := [f.d, f.a], tsR := [(n % 2 ^ 24, 32)] } s →
      ∃ t, exec (.pfset p f) s = .next t ∧ Ticked p.t s t ∧ OnlyCluster p.x s t ∧ (t.cl p.x).cx p.c = s.movedCtx p 1
        ∧ t.cl p.x = { s.cl p.x with
            ctxs := (t.cl p.x).ctxs, last := some p.c.val, issued := (s.cl p.x).issued + 1, switches := (t.cl p.x).switches, holds := (t.cl p.x).holds
            opNext := (s.cl p.x).opNext + 1, pfs := (s.cl p.x).pfs.set k ((s.cl p.x).pfDesc (n % 2 ^ 24) id) })
    ∧ (((s.cl p.x).pf k).inRange n = true → Issues p (opWord 0x3B f.word) id { sregs := [f.a, f.a, f.a] } s →
      (n < ((s.cl p.x).pf k).delivered →
        ∃ t, exec (.pfwait p f) s = .next t ∧ Ticked p.t s t ∧ OnlyCtx p.x p.c s t ∧ (t.cl p.x).cx p.c = s.movedCtx p 1)
      ∧ (((s.cl p.x).pf k).delivered ≤ n → ((s.cl p.x).pf k).failed = false →
        ∃ t, exec (.pfwait p f) s = .next t ∧ Ticked p.t s t ∧ OnlyCtx p.x p.c s t
          ∧ (t.cl p.x).cx p.c = { s.movedCtx p 1 with stall := .prefetch k n }))
    ∧ (((s.cl p.x).pf k).inRange n = true → Issues p (opWord 0x3C f.word) id { sregs := [f.a, f.a, f.a] } s →
      ∃ t, exec (.pfrel p f) s = .next t ∧ Ticked p.t s t ∧ OnlyCluster p.x s t ∧ (t.cl p.x).cx p.c = s.movedCtx p 1
        ∧ t.cl p.x = { s.cl p.x with
            ctxs := (t.cl p.x).ctxs, last := some p.c.val, issued := (s.cl p.x).issued + 1, switches := (t.cl p.x).switches, holds := (t.cl p.x).holds
            pfs := (s.cl p.x).pfs.set k (((s.cl p.x).pf k).release n (s.cl p.x).opNext) })

/-- When the prefetcher's next tile may be read and its pieces are served, the tile is delivered: its ring slot holds the
bytes read, what no piece covers is zero, and of the tile store, of the other clusters and of device memory nothing
changes. Cites R198, R199. -/
def Obligations.PrefetchTileArrives : Prop :=
  ∀ (t : Nat) (x : Fin 144) (pf : Fin 4) (s : State) (q : Prefetcher) (si : Bool) (z u : Nat) (bs : List Byte)
    (xs : List (Nat × List Byte)),
    s.shaped = true → (s.cl x).pfs.length = 4 → q = (s.cl x).pf pf → q.active = true → q.failed = false →
    q.delivered < q.count → s.pfMayRead x q q.delivered = true →
    servePieces s ((s.cmds[q.cmd]?).elim 0 fun c => c.d.job) (q.pieces q.delivered) = (.bytes bs si z u, xs) →
    ∃ w, exec (.prefetchTileArrive t x pf) s = .next w
      ∧ w = { s with tsc := { s.tsc with now := max s.tsc.now t }, clusters := w.clusters, pages := w.pages, cmds := w.cmds
                     convZeroed := w.convZeroed, convSat := w.convSat }
      ∧ (∀ y, y ≠ x.val → w.cl y = s.cl y)
      ∧ w.cl x = { s.cl x with ts := (w.cl x).ts, pfs := (w.cl x).pfs }
      ∧ ((w.cl x).pf pf).delivered = q.delivered + 1
      ∧ (w.cl x).ts = xs.foldl (fun m e => writeBytes m ((q.slotAt q.delivered).1 + e.1) e.2)
          (clearRange (q.slotAt q.delivered).1 ((q.slotAt q.delivered).1 + (q.slotAt q.delivered).2) (s.cl x).ts)

/-- When nothing blocks the oldest operation of the array's queue, it streams: it leaves the queue; the slot it names
holds the sum of what FIRST, FILL or its earlier value put there and the products of the stationary tile, loaded or
for KEEP the one held, with the streaming tile, or for CMB the value at A added to it as R104 or R107 adds; with LAST
it waits to be emitted; and no byte of the output store outside its slot, no register and no other cluster changes,
nor the tile store unless it spills. Cites R119, R122, R133, R192. -/
def Obligations.ArrayOperationsStream : Prop :=
  ∀ (t cycles fence : Nat) (x : Fin 144) (s : State) (o : ArrOp) (rest : List ArrOp), s.shaped = true →
    (s.cl x).arrQ = o :: rest → (s.cl x).arrBlocked o = false → (s.cl x).lockstep o = false →
    (o.cmb = true ∨ (ArrWord.ofWord o.word).keep = false
      ∨ ∃ st, (s.cl x).stat = some st ∧ (st.fmt, st.mode, st.ref) = (ArrWord.ofWord o.word).config) →
    ∃ u, exec (.arrayOpStream t x cycles fence) s = .next u ∧ Ticked t s u ∧ OnlyCluster x s u
      ∧ (u.cl x).arrQ = rest ∧ (u.cl x).ctxs = (s.cl x).ctxs ∧ (u.cl x).vregs = (s.cl x).vregs
      ∧ (u.cl x).chainQ = (s.cl x).chainQ ∧ (u.cl x).tq = (s.cl x).tq
      ∧ (∀ a, (a < (ArrWord.ofWord o.word).slotRange.1
            ∨ (ArrWord.ofWord o.word).slotRange.1 + (ArrWord.ofWord o.word).slotRange.2 ≤ a) →
          readAt 0 (u.cl x).ostore a = readAt 0 (s.cl x).ostore a)
      ∧ (u.cl x).emits = (s.cl x).emits ++ (if (ArrWord.ofWord o.word).last then [⟨o⟩] else [])
      ∧ ((ArrWord.ofWord o.word).spill = false → (u.cl x).ts = (s.cl x).ts)
      ∧ (o.cmb = true → u.cl x = ({ s.cl x with arrQ := rest } : Cluster).streamCmb o ∧ (u.cl x).stat = (s.cl x).stat
          ∧ SlotHolds o (((o.slotStart (s.cl x)).zip (o.combined (s.cl x))).mapIdx fun n q =>
              combine (ArrWord.ofWord o.word) n q.1 q.2) (s.cl x) (u.cl x))
      ∧ ∀ st, o.cmb = false → (if (ArrWord.ofWord o.word).keep then (s.cl x).stat = some st else st = o.load (s.cl x)) →
          u.cl x = ({ s.cl x with arrQ := rest } : Cluster).streamMxa o st cycles fence ∧ (u.cl x).stat = some st
          ∧ SlotHolds o (passRows (ArrWord.ofWord o.word) (o.columns st) (o.streamed (s.cl x)) (o.slotStart (s.cl x)))
              (s.cl x) (u.cl x)

/-- When the tile queue, or under TAP the record buffer, has room, the oldest LAST operation's slot is emitted: one tile
with its slot, command, format and rows joins the end of the queue, and neither the output store, the tile store, the
registers nor another cluster changes. Cites R125, R126, R143, R158, R161. -/
def Obligations.TilesAreEmitted : Prop :=
  ∀ (t : Nat) (x : Fin 144) (s : State) (e : Emit) (rest : List Emit), s.shaped = true → (s.cl x).emits = e :: rest →
    (s.cl x).accepts (ArrWord.ofWord e.op.word) = true →
    ∃ u tile, exec (.tileEmit t x) s = .next u ∧ Ticked t s u ∧ OnlyCluster x s u
      ∧ (u.cl x).tq = (s.cl x).tq ++ [tile] ∧ (u.cl x).emits = rest
      ∧ tile.slot = (ArrWord.ofWord e.op.word).slot ∧ tile.cmd = e.op.cmd ∧ tile.rows = (ArrWord.ofWord e.op.word).rows
      ∧ tile.outfmt = (ArrWord.ofWord e.op.word).outfmt ∧ tile.tap = (s.cl x).tap ∧ tile.pos = 0
      ∧ ((ArrWord.ofWord e.op.word).stat = false → tile.records = [] ∧ (u.cl x).run = (s.cl x).run)
      ∧ ((s.cl x).tap = false → tile.bytes = unitsBytes tile.outfmt
          (convUnits s tile.outfmt tile.mode tile.sat ((s.cl x).slotBytesAt (ArrWord.ofWord e.op.word))))
      ∧ (u.cl x).ostore = (s.cl x).ostore ∧ (u.cl x).ts = (s.cl x).ts ∧ (u.cl x).vregs = (s.cl x).vregs
      ∧ (u.cl x).ctxs = (s.cl x).ctxs

/-- When nothing blocks the oldest pass and the tile it reads, if it reads the queue, is there, the pass runs through the
stages: it leaves the chain's queue, its configuration word shows, the stages are busy for its cycles, and neither the
output store nor the array's queue nor another cluster changes. A pass of no elements moves no data. Cites R146, R149,
R159, R174, R179. -/
def Obligations.ChainPassesRun : Prop :=
  ∀ (t : Nat) (x : Fin 144) (s : State) (o : ChainOp) (rest : List ChainOp), s.shaped = true →
    (s.cl x).chainQ = o :: rest → (s.cl x).chainBlocked o = false →
    (o.e = 0 →
      ∃ u, exec (.chainPass t x) s = .next u ∧ Ticked t s u ∧ OnlyCluster x s u ∧ (u.cl x).chainQ = rest
        ∧ (u.cl x).ccw = o.word ∧ (u.cl x).ts = (s.cl x).ts ∧ (u.cl x).vregs = (s.cl x).vregs ∧ (u.cl x).tq = (s.cl x).tq)
    ∧ ∀ c', 0 < o.e → (o.ccw.src = 7 → (s.cl x).tq ≠ []) → (s.cl x).recordsMisfit o = false →
      ((s.cl x).popChain o (o.ccw.src == 7 && (s.cl x).tq.any fun q => q.tap)).runPass (tick t s) o = some c' →
      ∃ u, exec (.chainPass t x) s = .next u ∧ Ticked t s u ∧ OnlyCluster x s u ∧ u.cl x = c' ∧ (u.cl x).chainQ = rest
        ∧ (u.cl x).ccw = o.word ∧ (u.cl x).ostore = (s.cl x).ostore ∧ (u.cl x).arrQ = (s.cl x).arrQ
        ∧ (u.cl x).chainBusy = (s.cl x).chainBusy + o.cycles (o.ccw.src == 7 && (s.cl x).tq.any fun q => q.tap)

/-- A wait on buckle b with threshold t is satisfied exactly when COUNT less t, modulo 2^32, is less than 2^31. A signal
adds its increment to COUNT modulo 2^32 and to no other buckle, two signals leave the same count in either order, and
of a host write and a signal from a cluster stamped alike the signal comes first. Cites R201. -/
def Obligations.BuckleCounts : Prop :=
  ∀ (s : State) (b n i j t u src src' : Nat) (c c' : Option Nat), s.shaped = true → b < 4096 → t < 2 ^ 32 →
    (s.waitMet b t = true ↔ (((s.buckleCount b : Int) - t) % 2 ^ 32) < 2 ^ 31)
    ∧ (bump b i s).buckleCount b = (s.buckleCount b + i) % 2 ^ 32
    ∧ (∀ a, a ≠ b → a < 4096 → (bump b i s).buckleCount a = s.buckleCount a)
    ∧ (bump b i (bump b j s)).buckleCount b = (bump b j (bump b i s)).buckleCount b
    ∧ (s.quietGirth → (signal b i n src c s).buckleCount b = (s.buckleCount b + i) % 2 ^ 32
        ∧ (signal b i n src c (signal b j u src' c' s)).buckleCount b = (s.buckleCount b + i + j) % 2 ^ 32)
    ∧ (∀ v, (setReg (0x41000 + 8 * b) v (bump b i s)).buckleCount b = v % 2 ^ 32)
    ∧ (∀ x p, x < 144 → p < 8 → before (n, srcCluster x) (n, srcReg p) = true)

/-- The first effect the gate holds whose context has nothing in flight before it leaves the gate, at the earliest 2 µs
after it was issued: a signal adds its increment to its buckle, an END counts once for its logical cluster. No other
effect of the gate and no store changes. Cites R194, R201, R202, R344. -/
def Obligations.GateReleasesSignalsAndEnds : Prop :=
  ∀ (x : Fin 144) (s : State) (g : Gated) (gs : List Gated), s.shaped = true → s.gatePass x (s.cl x).gate = some (g, gs) →
    s.plainGate x g.cmd →
    (∀ b inc, g.what = .signal b inc → b < 4096 → s.quietGirth →
      ∃ t, exec (.releaseGatePass x) s = .next t ∧ Ticked (max s.tsc.now (g.t + 2000)) s t
        ∧ t.buckleCount b = (s.buckleCount b + inc) % 2 ^ 32 ∧ (∀ a, a ≠ b → a < 4096 → t.buckleCount a = s.buckleCount a)
        ∧ t = { s with tsc := t.tsc, clusters := t.clusters, regs := t.regs, groups := t.groups }
        ∧ (∀ y, y ≠ x.val → t.cl y = s.cl y) ∧ t.cl x = { s.cl x with gate := gs, begun := (t.cl x).begun })
    ∧ (∀ l c, g.what = .endCmd → (s.cl x).logical = some l → s.cmds[g.cmd]? = some c → c.live = true → c.endsMade.contains l = false →
      ∃ t, exec (.releaseGatePass x) s = .next t ∧ Ticked (max s.tsc.now (g.t + 2000)) s t
        ∧ t.cmds[g.cmd]? = some { c with endsMade := c.endsMade ++ [l] }
        ∧ t = { s with tsc := t.tsc, clusters := t.clusters, cmds := t.cmds }
        ∧ (∀ y, y ≠ x.val → t.cl y = s.cl y) ∧ t.cl x = { s.cl x with gate := gs, begun := (t.cl x).begun })

/-- A write on its way whose pages are WRITABLE, no checkpoint holds and no earlier overlapping write of the same origin
precedes reaches its tier: exactly its bytes change in device memory, it is no longer on its way, and a DATA_WRITE is
answered OK to its session. Cites R25, R202, R329, R332, R369. -/
def Obligations.WritesReachTheirTier : Prop :=
  ∀ (n : Nat) (s : State) (w : DevWrite) (t : Nat), s.shaped = true → (w.own = true → s.nothingHeld) →
    (s.writes.find? fun v => v.id == w.id) = some w → s.ckpBlocks w.addr w.bytes.length = false →
    (∀ v ∈ s.writes, v.id < w.id → v.sameOrigin w = true → overlap v.addr v.bytes.length w.addr w.bytes.length = false) →
    (∀ g ∈ pagesOf w.addr w.bytes.length, (s.page g).kind = .writable) → n = w.bytes.length →
    ∃ u, exec (.writeReachesTier t w.id) s = .next u
      ∧ (∀ a, readAt 0 u.dev a = if w.addr ≤ a ∧ a < w.addr + n then w.bytes.getD (a - w.addr) 0 else readAt 0 s.dev a)
      ∧ (∀ v ∈ u.writes, v ∈ s.writes ∧ v.id ≠ w.id)
      ∧ u.tsc = { s.tsc with now := max s.tsc.now t } ∧ u.regs = s.regs
      ∧ (∀ sid seq x, w.host = some (sid, seq) → s.session sid = some x → x.phase = .open_ → x.waiting = [] →
          s.unackedTo (.session sid) < 256 →
          ∃ m ∈ u.unacked, m.dest = .session sid ∧ m.body = .dataResp w.addr 0 seq [])

/-- With no change of grid pending, a boundary advances the stitch number by one and sets the next boundary one period on,
moved by the slip of a short stitch in which a replay took place (at most 40 µs), which the slip count and the origin
follow. Every command dispatched in the stitch that ends has ended by OVERRUN, every context is free, every tile store
and vector register is zero, the administration reserve is over, and the modes asked for are in effect. Cites R43,
R44, R45, R54, R196, R409. -/
def Obligations.StitchBoundariesAdvanceTheGrid : Prop :=
  ∀ (slip : Nat) (s : State), s.shaped = true → s.clockless = false → s.sth.gap = false → s.sth.change = none →
    (slip = 0 ∨ (s.sth.period < 100000 ∧ s.sth.replayed = true ∧ slip ≤ 40000)) →
    ∃ t, exec (.stitchBoundary slip) s = .next t
      ∧ t.sth.number = s.sth.number + 1 ∧ t.sth.start = s.sth.boundary + slip
      ∧ t.sth.boundary = s.sth.boundary + slip + s.sth.period ∧ t.sth.period = s.sth.period
      ∧ t.sth.origin = s.sth.origin + slip ∧ t.sth.slips = sat32 (s.sth.slips + slip)
      ∧ t.sth.closed = false ∧ t.sth.lateSent = false ∧ t.sth.replayed = false ∧ t.sth.gap = false
      ∧ s.sth.boundary + slip ≤ t.tsc.now
      ∧ t.modes = s.modesAsked
      ∧ (∀ x k : Nat, x < 144 → ((t.cl x).cx k).cmd = none ∧ (t.cl x).ts = [] ∧ (t.cl x).vregs = [])
      ∧ ∀ (id : Nat) (c : Cmd), s.cmds[id]? = some c → c.phase = .dispatched →
          ∃ c', t.cmds[id]? = some c' ∧ c'.phase = .ended .overrun

/-- In the gap before a new grid, the origin's coming puts the new period and origin in force: the stitch begins there,
the next boundary lies one new period on, no change is pending and no work runs in the first stitch.
ADMIN_RESERVE_BEGIN, 10 µs before the boundary, closes admission to the next stitch and numbers every event record
whose TIME the counter has passed by 2 µs; where none is due nothing else changes. Cites R44, R46, R66. -/
def Obligations.NewGridsBeginAtTheirOrigin : Prop :=
  (∀ (s : State) (c : GridChange), s.clockless = false → s.sth.gap = true → s.sth.change = some c →
    ∃ t, exec .gridOriginReached s = .next t ∧ t.sth.period = c.period ∧ t.sth.origin = c.origin ∧ t.sth.start = c.origin
      ∧ t.sth.boundary = c.origin + c.period ∧ t.sth.number = s.sth.number ∧ t.sth.change = none ∧ t.sth.gap = false
      ∧ t.sth.firstOfGrid = true ∧ c.origin ≤ t.tsc.now ∧ t.dev = s.dev ∧ t.regs = s.regs)
  ∧ ∀ s : State, s.clockless = false → s.sth.gap = false → s.sth.closed = false →
    (∃ t, exec .adminReserveBegin s = .next t ∧ Ticked (s.sth.boundary - 10000) s t ∧ t.sth = { s.sth with closed := true }
      ∧ t.cmds = s.cmds ∧ t.dev = s.dev ∧ t.regs = s.regs ∧ t.clusters = s.clusters
      ∧ ∀ k ∈ t.log.held, k.seq = none → t.tsc.now < k.evt.time + 2000)
    ∧ ((∀ e, s.log.first = some e → max s.tsc.now (s.sth.boundary - 10000) < e.time + 2000) →
      exec .adminReserveBegin s = .next { s with
        tsc := { s.tsc with now := max s.tsc.now (s.sth.boundary - 10000) }, sth := { s.sth with closed := true } })

/-- At the end of the budget of the stitch, the device records one CMD_LATE event for each command that a cluster is still
running, in the order of the commands, with code 0x0101, severity NOTICE, the end of the budget as its TIME and as its
ARG the lowest logical number of the command's set that is still running its work, whose cluster is its source; the
commands and the clusters are as they were. Cites R53, R439, R64. -/
def Obligations.LateCommandsAreReportedAndRunOn : Prop :=
  ∀ s : State, s.clockless = false → s.sth.lateSent = false → s.sth.gap = false → s.minSev ≤ 1 →
    exec .cmdLate s = .next { s with
      tsc := { s.tsc with now := max s.tsc.now s.budgetEnd }
      sth := { s.sth with lateSent := true }
      log := (s.cmdIds Cmd.running).foldl (fun l id => match s.cmds[id]? with
        | some c => EvtLog.place ⟨s.budgetEnd, s.clusterSource c.lowestRunning, 0x0101, s.stitchAt s.budgetEnd, c.d.job, 1,
            c.d.tag, c.lowestRunning % 2 ^ 32⟩ l
        | none => l) s.log }

/-- The record that is numbered is one that no other unnumbered record precedes in the order of stamp and source; it takes
the next running number, once the counter has passed its TIME by 2 µs. Where no session is subscribed and no loss
waits to be reported, nothing else changes. Cites R61, R66, R67. -/
def Obligations.RecordsAreNumberedInOrder : Prop :=
  ∀ (s : State) (e : Evt), s.log.first = some e →
    (∀ h ∈ s.log.held, h.seq = none → before (h.evt.time, h.evt.source) (e.time, e.source) = false)
    ∧ (∃ t, exec .evtSequence s = .next t ∧ t.log.next = s.log.next + 1 ∧ Ticked (e.time + 2000) s t ∧ t.dev = s.dev
        ∧ t.regs = s.regs ∧ t.cmds = s.cmds)
    ∧ ((∀ x ∈ s.sessions, x.sub = none) → s.log.since = 0 →
        exec .evtSequence s = .next { s with
          tsc := { s.tsc with now := max s.tsc.now (e.time + 2000) }
          log := { s.log with held := sequenceOne e s.log.next s.log.held, next := s.log.next + 1 } })

/-- A pulse waits for its frame, in IDLE as in ON, where the sideband is the reference, and has none where it is not; a
valid frame from 100 ms to 900 ms after it measures the offset as the stamp of the pulse less SECONDS times 10^9, and
the pulse no longer waits; a pulse without one by 900 ms is ignored, and the third in a row puts a counter that has
been locked in holdover. Over Ethernet, a Sync of the domain of TSC_CONFIG on the port time is taken from, one-step,
or two-step with the Follow_Up that names it, is followed by a Delay_Req, and the Delay_Resp to it measures half the
difference of the two directions, corrections taken off, rounded downwards: the formula and its rounding are the
model's (log entry 18, PRESUMED; R309 gives none). Frames change nothing outside the counter, the grid, the ports, the
event log and what is sent, but the stamp from which a pulse or a wake counts, which a step moves along. Cites R60,
R309, R429, R438. -/
def Obligations.TimeIsMeasured : Prop :=
  ∀ (t : Nat) (s : State),
    (s.clockless = false → s.tscRef = 2 → s.tsc.pulse = none →
      exec (.ppsInPulse t) s = .next { s with tsc := { s.tsc with
        now := max s.tsc.now t, lastPulse := some t, pulse := some t } })
    ∧ (s.clockless = false → s.tscRef ≠ 2 →
      exec (.ppsInPulse t) s = .next { s with tsc := { s.tsc with
        now := max s.tsc.now t, lastPulse := some t, pulse := none, todValid := false } })
    ∧ (∀ (f : List Byte) (p sec : Nat), s.tscRef = 2 → s.fwDown = none → s.tsc.pulse = some p → todSeconds f = some sec →
        p + 100000000 ≤ t → t ≤ p + 900000000 →
        ∃ u, exec (.todFrame t f) s = .next u ∧ u.tsc.offset = (p : Int) - sec * 1000000000 ∧ u.tsc.pulse = none
          ∧ u.tsc.ignored = 0 ∧ u.tsc.todValid = true
          ∧ u = { s with tsc := u.tsc, sth := u.sth, log := u.log, pwr := { s.pwr with wokeAt := u.pwr.wokeAt } })
    ∧ (∀ p, s.tscRef = 2 → s.tsc.pulse = some p →
        ∃ u, exec .todFrameTimeout s = .next u ∧ u.tsc.pulse = none ∧ u.tsc.ignored = s.tsc.ignored + 1
          ∧ u.tsc.now = max s.tsc.now (p + 900000000)
          ∧ (2 ≤ s.tsc.ignored → s.tsc.everLocked = true → u.tsc.holdover = true)
          ∧ u = { s with tsc := u.tsc, log := u.log })
    ∧ ∀ (port : Fin 8) (dom : Byte), (s.port port).link = true → s.timePort = some port.val → s.fwDown = none →
        dom.toNat = bits (s.reg 0x20114) 0 8 →
        (∀ (id origin : Nat) (corr : Int), ∃ u, exec (.ptpMessage t port ⟨dom, .sync id false origin corr⟩) s = .next u
          ∧ u.tsc.sync = some (id, ((t : Int) - corr).toNat, some origin)
          ∧ u.tsc.delayReq = some (id, max s.tsc.now t)
          ∧ u.tx = s.tx ++ [⟨max s.tsc.now t, some port.val, .link, none, false, .delayReq id, []⟩]
          ∧ u = { s with tsc := u.tsc, ports := u.ports, tx := u.tx })
        ∧ (∀ (id origin : Nat) (corr : Int), ∃ u, exec (.ptpMessage t port ⟨dom, .sync id true origin corr⟩) s = .next u
          ∧ u.tsc.sync = some (id, ((t : Int) - corr).toNat, none) ∧ u.tx = s.tx
          ∧ u = { s with tsc := u.tsc, ports := u.ports })
        ∧ (∀ (id t2 origin : Nat) (corr : Int), s.tsc.sync = some (id, t2, none) →
          ∃ u, exec (.ptpMessage t port ⟨dom, .followUp id origin corr⟩) s = .next u
            ∧ u.tsc.sync = some (id, ((t2 : Int) - corr).toNat, some origin)
            ∧ u.tsc.delayReq = some (id, max s.tsc.now t)
            ∧ u.tx = s.tx ++ [⟨max s.tsc.now t, some port.val, .link, none, false, .delayReq id, []⟩]
            ∧ u = { s with tsc := u.tsc, ports := u.ports, tx := u.tx })
        ∧ ∀ (id t1 t2 t3 receive : Nat) (corr : Int), s.tsc.sync = some (id, t2, some t1) → s.tsc.delayReq = some (id, t3) →
          ∃ u, exec (.ptpMessage t port ⟨dom, .delayResp id receive corr⟩) s = .next u
            ∧ u.tsc.offset = (((t2 : Int) - t1) - (((receive : Int) - corr) - t3)) / 2
            ∧ u.tsc.sync = none ∧ u.tsc.delayReq = none
            ∧ u = { s with tsc := u.tsc, sth := u.sth, ports := u.ports, log := u.log
                           pwr := { s.pwr with wokeAt := u.pwr.wokeAt } }

/-- When the counter steps by d nanoseconds, the device adds d to the origin at the same moment: the boundaries, in force
and pending, stay where they were against the counter. A step that a measured offset asks for is of this kind, and a
measurement that asks for none leaves the grid as it is. Cites R47. -/
def Obligations.CountersStepWithTheirGrid : Prop :=
  ∀ (d : Nat) (o : Int) (s : State),
    ((stepCounter d s).tsc.now = s.tsc.now + d ∧ (stepCounter d s).sth.origin = s.sth.origin + d
      ∧ (stepCounter d s).sth.start = s.sth.start + d ∧ (stepCounter d s).sth.boundary = s.sth.boundary + d
      ∧ (stepCounter d s).sth.number = s.sth.number ∧ (stepCounter d s).sth.period = s.sth.period
      ∧ (stepCounter d s).sth.change = s.sth.change.map (fun g => { g with origin := g.origin + d }))
    ∧ (discipline o s).sth.boundary - (discipline o s).tsc.now = s.sth.boundary - s.tsc.now
    ∧ (discipline o s).sth.origin + s.tsc.now = s.sth.origin + (discipline o s).tsc.now
    ∧ ((discipline o s).tsc.now = s.tsc.now → (discipline o s).sth = s.sth)

/-- A CMD message is answered with a state for every list of 1 to 64 descriptors, taken in their order, one command each.
One descriptor that meets no reason of R441 and that a stitch of the window takes completes: its command is added,
admitted to the first such stitch with its cost charged, and but for the ADMITTED status that NOTIFY asks for nothing
else changes. One that R441 refuses ends as REFUSED with the reason, counted and reported; one bound to no step is
admitted to the first stitch of the window whose budget holds it, and where none does goes to the hold queue while
that has room. An update command bound to a step whose verdict was OVERFLOW is discarded. But for what a discard
signals, earlier commands, device memory and the registers stay as they were. Cites R48, R49, R50, R51, R204, R244,
R249, R326, R328, R441. -/
def Obligations.CommandsAreAdmittedOrRefused : Prop :=
  ∀ (h : Hdr) (x : Session) (s : State) (flags : Byte) (bs : List Byte) (d : Desc) (u : State) (id : Nat),
    HostReady h x s → flags.toNat < 2 → (∀ y, s.session h.chan.toNat = some y → y.maxp = x.maxp) →
    u = delivered h s → id = u.cmds.length → d = Desc.ofBytes bs →
    (∀ ds : List (List Byte), ds ≠ [] → ds.length ≤ 64 → 8 + 64 * ds.length ≤ x.maxp → (∀ b ∈ ds, b.length = 64) →
      exec (.cmd h flags ds) s = .next
        (ds.foldl (fun v b => ingest (deliveredSession h x s) h.port (flags.getLsbD 0) b v) u))
    ∧ (bs.length = 64 → 72 ≤ x.maxp → ∀ (n : Nat) (step : Option (Nat × Nat)) (fenced : Bool),
      u.ingressReason (deliveredSession h x s) (u.cmds.any fun c => c.live && c.sid == x.sid && c.d.tag == d.tag) d = none →
      (u.bindOf d).bound = some (step, fenced) → FirstFit d n u →
      ∃ t, exec (.cmd h flags [bs]) s = .next t
        ∧ t.cmds = u.cmds ++ [admittedAs d x.sid h.port n (flags.getLsbD 0) step fenced u]
        ∧ t = { u with cmds := t.cmds, sessions := t.sessions, unacked := t.unacked, tx := t.tx, ports := t.ports }
        ∧ (flags.getLsbD 0 = false → t.sessions = u.sessions ∧ t.unacked = u.unacked ∧ t.tx = u.tx ∧ t.ports = u.ports))
    ∧ (bs.length = 64 → 72 ≤ x.maxp → ∃ t, exec (.cmd h flags [bs]) s = .next t ∧ t.cmds.length = id + 1
      ∧ ((∀ n k, u.bindOf d ≠ .update n k true) → t.dev = u.dev ∧ t.regs = u.regs ∧ ∀ j, j < id → t.cmds[j]? = u.cmds[j]?)
      ∧ (∀ n k, u.bindOf d = .update n k true →
          u.ingressReason (deliveredSession h x s) (u.cmds.any fun c => c.live && c.sid == x.sid && c.d.tag == d.tag) d = none →
          ∃ c, t.cmds[id]? = some c ∧ c.d = d ∧ c.step = some (n, k) ∧ c.phase = .ended .discarded)
      ∧ (∀ r, u.ingressReason (deliveredSession h x s) (u.cmds.any fun c => c.live && c.sid == x.sid && c.d.tag == d.tag) d = some r →
          t.sth.refused = sat32 (u.sth.refused + 1)
          ∧ ∃ c, t.cmds[id]? = some c ∧ c.d = d ∧ c.sid = x.sid ∧ c.phase = .ended .refused ∧ c.code = r)
      ∧ (u.ingressReason (deliveredSession h x s) (u.cmds.any fun c => c.live && c.sid == x.sid && c.d.tag == d.tag) d = none →
          u.bindOf d = .free →
          ∃ c, t.cmds[id]? = some c ∧ c.d = d ∧ c.sid = x.sid ∧ c.step = none ∧ c.time = u.tsc.now
            ∧ ((c.phase = .admitted ∧ u.openLo ≤ c.stitch ∧ c.stitch ≤ u.openHi ∧ d.target ≤ c.stitch ∧ c.charged = true
                  ∧ ∀ l ∈ d.logicals, d.cost + u.used l c.stitch ≤ u.stitchBudget c.stitch)
              ∨ (c.phase = .held ∧ u.heldCount < 4096)
              ∨ (c.phase = .ended .refused ∧ c.code = 3 ∧ 4096 ≤ u.heldCount))))

/-- An abort within the session that posted the command ends it as ABORTED where it has not ended, and is answered with
the RESULT of R58: ABORTED_WAITING while it waits, ABORTED_RUNNING once dispatched, TOO_LATE where it has completed,
NOT_FOUND where the session has none, and ALREADY_ENDED otherwise, as after a discard (R251) and, by log entry 38
(DEDUCED), after a program error. The abort counts in the order in which it is delivered. Cites R57, R58, R251, R330. -/
def Obligations.AbortsEndOneCommand : Prop :=
  ∀ (h : Hdr) (x : Session) (s : State) (tag : Reg32) (u : State), HostReady h x s →
    (heard h s).unackedTo (.session h.chan.toNat) < 255 → u = delivered h s →
    ∃ t, exec (.abort h tag) s = .next t ∧ t.dev = u.dev ∧ t.regs = u.regs
      ∧ (∀ j, u.cmdTagged x.sid tag.toNat ≠ some j → t.cmds[j]? = u.cmds[j]?)
      ∧ (∃ m ∈ t.unacked, m.dest = .session x.sid
          ∧ m.body = .abortResult tag.toNat (u.abortResult (u.cmdTagged x.sid tag.toNat)) h.seq.toNat)
      ∧ ∀ (j : Nat) (c : Cmd), u.cmdTagged x.sid tag.toNat = some j → u.cmds[j]? = some c →
          (c.phase = .held → u.abortResult (some j) = 0) ∧ (c.phase = .admitted → u.abortResult (some j) = 0)
          ∧ (c.phase = .dispatched → u.abortResult (some j) = 1)
          ∧ (c.phase = .ended .completed → u.abortResult (some j) = 2)
          ∧ (∀ f, c.phase = .ended f → f ≠ .completed → u.abortResult (some j) = 4)
          ∧ ∃ c', t.cmds[j]? = some c' ∧ (c.live = true → c'.phase = .ended .aborted) ∧ (c.live = false → c' = c)

/-- The next command of an idle context begins there with its program's code, its counter and VL zero and the six
registers of R184, held at the first wait of its descriptor that is not satisfied. A command whose every cluster has
released END, whose writes have reached their tier and whose contributions are accepted completes with the cycles
measured. Cites R25, R184, R185, R194, R206, R327. -/
def Obligations.CommandsBeginAndComplete : Prop :=
  (∀ (p : At) (s : State) (l id : Nat) (c : Cmd) (bs : List Byte) (si : Bool) (z u : Nat), s.shaped = true →
    (s.cl p.x).logical = some l → ((s.cl p.x).cx p.c).cmd = none → (s.cl p.x).stopped = false → s.pwr.state = .on →
    s.nextCmd p.x p.c l = some id → s.cmds[id]? = some c → s.serve c.d.job (c.d.program + 288) c.codeLen = .bytes bs si z u →
    ∃ t, exec (.cmdBegin p) s = .next t ∧ Ticked p.t s t ∧ t.dev = s.dev ∧ t.regs = s.regs
      ∧ (∀ y, y ≠ p.x.val → t.cl y = s.cl y) ∧ (∀ j, j ≠ p.c.val → (t.cl p.x).cx j = (s.cl p.x).cx j)
      ∧ (t.cl p.x).cx p.c = ⟨some id, 0, 0, [BitVec.ofNat 64 (l - c.d.clBase), BitVec.ofNat 64 c.d.args, BitVec.ofNat 64 c.d.tag,
            BitVec.ofNat 64 c.stitch, BitVec.ofNat 64 (c.d.clCount + 1), BitVec.ofNat 64 l] ++ List.replicate 26 0,
          (chunks 8 bs.length bs).map (fun w => BitVec.ofNat 64 (ofLE w)),
          if !(c.d.wait0.all fun w => s.waitMet w.1 w.2) then .wait0
          else if !(c.d.wait1.all fun w => s.waitMet w.1 w.2) then .wait1 else .none⟩
      ∧ ∃ c', t.cmds[id]? = some c' ∧ c'.begun.contains l = true)
  ∧ ∀ (n id : Nat) (measured : Reg32) (s : State) (c : Cmd), s.cmds[id]? = some c → s.mayComplete id c = true →
    ∃ t c', exec (.commandComplete n id measured) s = .next t ∧ t.cmds[id]? = some c' ∧ c'.phase = .ended .completed
      ∧ c'.measured = measured.toNat ∧ (∀ j, j ≠ id → t.cmds[j]? = s.cmds[j]?)
      ∧ (c.d.signal = none → t.regs = s.regs ∧ t.dev = s.dev)

/-- A write of a period in range, or of an origin at least one period ahead, leaves a change pending: it takes effect at
the next boundary or at the origin written, and commands admitted to stitches from then on return to the hold queue. A
write out of range, or while a change is pending, is refused and changes nothing. COUNT holds the written value, for a
job's own session too; another job's is denied. Cites R46, R69, R201, R331, R413. -/
def Obligations.GridAndBuckleWrites : Prop :=
  ∀ (h : Hdr) (x : Session) (s d : State) (v : Reg32) (n : BitVec 12), HostReady h x s → d = delivered h s →
    (x.controls → d.sth.change = none → 20000 ≤ v.toNat → v.toNat ≤ 50000000 →
      ∃ t, exec (.sthPeriodWrite h v) s = .next (answered h x 0 t)
        ∧ t.sth = { d.sth with change := some ⟨v.toNat, d.sth.boundary⟩ } ∧ t.reg 0x10100 = v.toNat
        ∧ HeldFrom (d.changeNumber ⟨v.toNat, d.sth.boundary⟩) d t ∧ t.dev = d.dev ∧ t.clusters = d.clusters ∧ t.log = d.log)
    ∧ (x.controls → (d.sth.change ≠ none ∨ v.toNat < 20000 ∨ 50000000 < v.toNat) →
      exec (.sthPeriodWrite h v) s = .next (answered h x 1 d))
    ∧ (x.controls → d.sth.change = none → d.tsc.now + d.sth.period ≤ v.toNat * 2 ^ 32 + d.sth.heldLo →
      ∃ t, exec (.sthOriginWrite h v) s = .next (answered h x 0 t)
        ∧ t.sth = { d.sth with change := some ⟨d.sth.period, v.toNat * 2 ^ 32 + d.sth.heldLo⟩ } ∧ t.regs = d.regs
        ∧ HeldFrom (d.changeNumber ⟨d.sth.period, v.toNat * 2 ^ 32 + d.sth.heldLo⟩) d t ∧ t.dev = d.dev
        ∧ t.clusters = d.clusters ∧ t.log = d.log)
    ∧ (x.controls → (d.sth.change ≠ none ∨ v.toNat * 2 ^ 32 + d.sth.heldLo < d.tsc.now + d.sth.period) →
      exec (.sthOriginWrite h v) s = .next (answered h x 1 d))
    ∧ ((x.controls ∨ (x.cls = 2 ∧ d.buckleJob n.toNat = x.job)) →
      (∃ t, exec (.pmcBklCountWrite h n v) s = .next (answered h x 0 t))
      ∧ (d.quietGirth → exec (.pmcBklCountWrite h n v) s
          = .next (answered h x 0 (setReg (0x41000 + 8 * n.toNat) v.toNat d))))
    ∧ (x.cls = 2 → d.buckleJob n.toNat ≠ x.job →
      exec (.pmcBklCountWrite h n v) s = .next (answered h x 2 (noteDenied x.sid d)))

/-- A write of PG_CTRL of a gated page holds EN and DRAIN; with ABORT, every dispatched command that uses the page ends as
ABORTED with code 0x10 and no other command ends, and ABORTING shows until their work has stopped, at most 2 µs later
(R56; that time is free, log entry 55). PG_MODE takes a mode unless R410 forbids it now. DRN_CNT_CLEAR and
LCH_CNT_CLEAR zero the counter sets they name and no other. MXA_DEBUG is written by a MAINTENANCE session that the
policy lets, which is measured in M3; any other write of it is denied. Cites R55, R56, R137, R180, R390, R398, R406,
R408, R410. -/
def Obligations.PageAndClusterWrites : Prop :=
  ∀ (h : Hdr) (x : Session) (s d : State) (v : Reg32) (c : Fin 144), HostReady h x s → d = delivered h s →
    (∀ (addr : Reg32) (en drain : Bool) (l : Loc), x.controls → d.locate addr.toNat = some l → l.off = 8 → l.ty.gated = true →
      exec (.pgCtrlWrite h addr en drain) s = .next (answered h x 0
        (setReg l.addr (b2n en * 2 ^ 31 + b2n drain * 2 ^ 30) d) l.tree)
      ∧ ∃ t, exec (.pgAbort h addr en drain) s = .next (answered h x 0 t l.tree)
        ∧ t.reg l.addr = b2n en * 2 ^ 31 + b2n drain * 2 ^ 30 ∧ t.dev = d.dev
        ∧ ((∃ k ∈ d.cmds, k.phase = .dispatched ∧ (d.pagesUsed k.d).contains l.base = true) →
            ∃ n, (l.base, n) ∈ t.aborts ∧ n ≤ d.tsc.now + 2000)
        ∧ ∀ (id : Nat) (k : Cmd), d.cmds[id]? = some k →
          if k.phase = .dispatched ∧ (d.pagesUsed k.d).contains l.base = true then
            ∃ k', t.cmds[id]? = some k' ∧ k'.phase = .ended .aborted ∧ k'.code = 0x10
          else t.cmds[id]? = some k)
    ∧ (∀ (addr : Reg32) (l : Loc), x.controls → d.locate addr.toNat = some l → l.off = 0x10 → l.ty.modeMask ≠ 0 →
      exec (.pgModeWrite h addr v) s = .next (
        if d.modeMayChange l.ty then answered h x 0 (setReg l.addr (v.toNat % (l.ty.modeMask + 1)) d) l.tree
        else answered h x 1 d l.tree))
    ∧ (x.controls → ∃ t, exec (.drnCntClear h c v) s = .next (answered h x 0 t (some (c.val / 36)))
      ∧ t = { d with clusters := t.clusters } ∧ (∀ y, y ≠ c.val → t.cl y = d.cl y)
      ∧ t.cl c = { d.cl c with drn := (t.cl c).drn, drnMark := (t.cl c).drnMark }
      ∧ ∀ i, i < 8 → (t.cl c).drn.getD i {} = if v.getLsbD i then {} else (d.cl c).drn.getD i {})
    ∧ (x.controls → ∃ t, exec (.lchCntClear h c v) s = .next (answered h x 0 t (some (c.val / 36)))
      ∧ t = { d with clusters := t.clusters } ∧ (∀ y, y ≠ c.val → t.cl y = d.cl y)
      ∧ t.cl c = { d.cl c with lch := (t.cl c).lch, lchMark := (t.cl c).lchMark }
      ∧ ∀ i, i < 8 → (t.cl c).lch.getD i {} = if v.getLsbD i then {} else (d.cl c).lch.getD i {})
    ∧ (x.cls = 3 → (v.getLsbD 0 = false ∨ d.policy 0 = true) →
      ∃ t, exec (.mxaDebugWrite h c v) s = .next (answered h x 0 t (some (c.val / 36))) ∧ t.reg (clusterAddr c 0 0x128) = b2n (v.getLsbD 0)
        ∧ t.sec = (if v.getLsbD 0 then (extendM 3 7 (sha384 (leBytes 2 (srcCluster c))) d).sec else d.sec)
        ∧ t.dev = d.dev ∧ t.cmds = d.cmds ∧ t.clusters = d.clusters)
    ∧ ((x.cls = 1 ∨ x.cls = 2 ∨ (x.cls = 3 ∧ v.getLsbD 0 = true ∧ d.policy 0 = false)) →
      exec (.mxaDebugWrite h c v) s = .next (answered h x 2 (noteDenied x.sid d) (some (c.val / 36))))

/-- TRN_CLOSE takes effect only when it names the COLLECTING step and the step before is decided: that step is CLOSING,
the next COLLECTING with its flag word zero. A slot is enabled for a job when the conditions of R242 and R275 hold,
with its first step COLLECTING, once its first flag word and state block can both be written; disabled, it has no
step, the write being refused for JOB (the model's reading of R15, log entry 57), and update commands whose verdict is
open are discarded. RESUME takes the decision that STOP held, and clears the halt if it succeeds; what the verdict
writes may then still wait. A write of EXP counts from the next verdict. A group is enabled where R302 lets it, and a
host-assisted group takes its verdict from GRT_GRP_VOTE. Cites R242, R243, R248, R253, R268, R275, R276, R300, R302,
R442. -/
def Obligations.TrainingAndGroupWrites : Prop :=
  ∀ (h : Hdr) (x : Session) (s d : State) (n : Fin 16), HostReady h x s → d = delivered h s →
    (∀ (step : Reg32) (y : TStep), x.mayWriteAt h d (trnAddr n 8) step.toNat → d.trnOn n = true → (d.slot n).collecting = some y →
      if y.num % 2 ^ 32 = step.toNat
          ∧ ((d.slot n).steps.all fun z => z.num + 1 != y.num || z.phase == .decided || z.phase == .retired) = true then
        ∃ t, exec (.trnClose h n step) s = .next (answered h x 0 t)
          ∧ (t.slot n).steps = updateWhere (fun z => z.num == y.num) (fun z => { z with phase := .closing }) (d.slot n).steps
              ++ [TStep.fresh (y.num + 1) d.latchSets]
          ∧ (∀ k, k ≠ n.val → t.slot k = d.slot k)
          ∧ (d.settable (d.flagWordAt n (y.num + 1)) 8 = true → d.hubWaits (d.flagWordAt n (y.num + 1)) 8 = false →
              t.devNum (d.flagWordAt n (y.num + 1)) 8 = 0)
          ∧ ∀ b, (b < d.flagWordAt n (y.num + 1) ∨ d.flagWordAt n (y.num + 1) + 8 ≤ b) → readAt 0 t.dev b = readAt 0 d.dev b
      else exec (.trnClose h n step) s = .next (answered h x 1 d))
    ∧ (∀ job : BitVec 16, x.controls → d.trnOn n = false →
      (d.slotMayEnable n job.toNat = true → d.enableWaits n (d.reg64 (trnAddr n 0x10)) = false →
        ∃ t, exec (.trnSlotEnable h n job) s = .next (answered h x 0 t) ∧ t.trnOn n = true ∧ t.trnJob n = job.toNat
          ∧ (t.slot n).steps.map (fun y => (y.num, y.phase)) = [(d.reg64 (trnAddr n 0x10), .collecting)]
          ∧ (t.slot n).enabledAt = d.tsc.now ∧ ∀ k, k ≠ n.val → t.slot k = d.slot k)
      ∧ (d.slotMayEnable n job.toNat = true → d.enableWaits n (d.reg64 (trnAddr n 0x10)) = true →
        exec (.trnSlotEnable h n job) s = .next (answered h x 0
          (onSlot n (fun y => { y with enabling := some job.toNat }) (setReg (trnAddr n 0) job.toNat d))))
      ∧ (d.slotMayEnable n job.toNat = false →
        exec (.trnSlotEnable h n job) s = .next (answered h x 1
          (onSlot n (fun y => { y with enabling := none }) (setReg (trnAddr n 0) job.toNat d))))
      ∧ exec (.trnSlotDisable h n job) s = .next (answered h x 0
          (onSlot n (fun y => { y with enabling := none }) (setReg (trnAddr n 0) job.toNat d))))
    ∧ (∀ job : BitVec 16, x.controls → d.trnOn n = true →
      ∃ t, exec (.trnSlotDisable h n job) s = .next (answered h x 1 t)
        ∧ t.trnOn n = false ∧ t.trnJob n = d.trnJob n ∧ (t.slot n).steps = []
        ∧ ∀ (id k : Nat) (c : Cmd), d.cmds[id]? = some c → c.step = some (n.val, k) → c.live = true → c.fenced = true →
            ((d.slot n).find k).all (fun y => y.verdict.isNone) = true →
            ∃ c', t.cmds[id]? = some c' ∧ c'.phase = .ended .discarded)
    ∧ (x.mayWriteAt h d (trnAddr n 4) (2 + 4 * b2n (d.trnReplay n)) →
      (∀ (ovf missing : Bool) (y : TStep) (tb : List Layer) (a k : Nat), (d.slot n).halt = some .stop →
        (d.slot n).pendFlag = some (ovf, missing) → ((d.slot n).steps.find? fun z => z.phase == .voting) = some y →
        d.fallback n = .go tb a k → d.verdictWaits n y.num = false →
        ∃ t y', exec (.resume h n) s = .next (answered h x (b2n (d.trnOn n)) t) ∧ (t.slot n).find y.num = some y' ∧ y'.phase = .decided
          ∧ y'.verdict = some ovf ∧ y'.missing = missing ∧ (t.slot n).pendFlag = none)
      ∧ (∀ (ovf missing : Bool) (y : TStep) (e : State), (d.slot n).halt = some .stop →
        (d.slot n).pendFlag = some (ovf, missing) → ((d.slot n).steps.find? fun z => z.phase == .voting) = some y →
        d.tableOk n = true → e = setReg (trnAddr n 4) (4 * b2n (d.trnReplay n)) d →
        (∀ w, d.fallback n = .stop w → exec (.resume h n) s = .next (answered h x (b2n (d.trnOn n)) e))
        ∧ ∀ tb a k, d.fallback n = .go tb a k → d.verdictWaits n y.num = true →
          exec (.resume h n) s = .next (answered h x (b2n (d.trnOn n)) (onSlot n (fun z => { z with
            halt := none, pendFlag := none, late := some ⟨ovf, missing, some (tb, a, k)⟩ }) e)))
      ∧ ((d.slot n).halt ≠ some .stop → exec (.resume h n) s
          = .next (answered h x (b2n (d.trnOn n)) (setReg (trnAddr n 4) (4 * b2n (d.trnReplay n)) d))))
    ∧ (∀ v : Reg32, x.mayWriteAt h d (trnAddr n 0x20) v.toNat → 1 ≤ bits v.toNat 16 16 → bits v.toNat 0 5 ≤ 24 →
      ∃ t, exec (.trnScaleWrite h n v) s = .next (answered h x 0 t) ∧ bits (t.reg (trnAddr n 0x20)) 16 16 = bits v.toNat 16 16
        ∧ OnlySlot n d t
        ∧ t.slot n = if bits v.toNat 0 5 = (d.slot n).exp then d.slot n
            else if d.trnOn n then { d.slot n with expWrite := some (bits v.toNat 0 5) }
            else { d.slot n with exp := bits v.toNat 0 5 })
    ∧ (∀ (v : Reg32) (e : State), x.controls → (d.gcfg n).on = false →
      e = setReg (grpAddr n 0) (bits v.toNat 0 16 + bits v.toNat 30 1 * 2 ^ 30) d →
      (e.groupMayEnable n (bits v.toNat 0 16) = true →
        ∃ t, exec (.grtGroupEnable h n v) s = .next (answered h x 0 t) ∧ (t.gcfg n).on = true
          ∧ (t.gcfg n).job = bits v.toNat 0 16 ∧ (t.gcfg n).forced = (bits v.toNat 30 1 == 1))
      ∧ (e.groupMayEnable n (bits v.toNat 0 16) = false → exec (.grtGroupEnable h n v) s = .next (answered h x 1 e)))
    ∧ (∀ v : Reg32, x.controls → (d.gcfg n).on = true →
      exec (.grtGroupEnable h n v) s = .next (answered h x 1 d))
    ∧ (∀ (v : Reg32) (k : Nat) (y : TStep), x.mayWriteAt h d (grpAddr n 0x50) v.toNat →
      (d.hostReduce = false → exec (.grtGrpVote h n v) s = .next (answered h x 0 d))
      ∧ (d.hostReduce = true → (d.gcfg n).on = true → d.slotOf (d.gcfg n).job = some k →
          ((d.slot k).steps.find? fun z => z.phase == .voting) = some y → (d.slot k).find y.num = some y →
          (d.slot k).pendFlag = none → (d.slot k).late = none → d.verdictWaits k y.num = false →
          (d.slot k).halt ≠ some .verdictLost → y.rplVerdict = none →
          (d.trnReplay k = true ∨ d.hostFallback = true ∨ ∃ tb a m, d.fallback k = .go tb a m) →
          ∃ t y', exec (.grtGrpVote h n v) s = .next (answered h x 0 t) ∧ (t.slot k).find y.num = some y'
            ∧ y'.phase = .decided ∧ y'.verdict = some (v.getLsbD 0) ∧ y'.missing = v.getLsbD 1))

/-- A step that is CLOSING, its forward and backward commands ended and the step before it RETIRED, enters VOTING with the
local flag of R245; on a module that reduces with no other, that flag is the verdict. A DECIDED step whose successor
has left COLLECTING and whose update commands have ended is RETIRED, and its record stands at its place of the ring.
Cites R243, R245, R246, R269, R443. -/
def Obligations.StepsVoteAndRetire : Prop :=
  ∀ (t : Nat) (n : Fin 16) (s : State) (y : TStep), s.shaped = true → s.trnOn n = true → (s.slot n).find y.num = some y →
    (s.readyToVote n = some y →
      ∃ u y', exec (.stepVoting t n) s = .next u ∧ Ticked t s u ∧ (u.slot n).find y.num = some y'
        ∧ y'.votingAt = max s.tsc.now t ∧ y'.flag = s.localFlag n y ∧ (y'.phase = .voting ∨ y'.phase = .decided)
        ∧ ((∀ g, s.groupOf (s.trnJob n) = some g → (s.gcfg g).nrank ≤ 1) → s.hostFallback = true → (s.slot n).pendFlag = none →
            (s.slot n).late = none → s.verdictWaits n y.num = false → (s.slot n).halt ≠ some .verdictLost → y.rplVerdict = none →
            y'.phase = .decided ∧ y'.verdict = some (s.localFlag n y)))
    ∧ (s.readyToRetire n = some y → (s.ckp.phase = .armed → s.nothingHeld) →
      ∃ u y', exec (.stepRetired t n) s = .next u ∧ Ticked t s u ∧ (u.slot n).find y.num = some y' ∧ y'.phase = .retired
        ∧ (∀ k, k ≠ n.val → u.slot k = s.slot k) ∧ u.cmds = s.cmds ∧ u.regs = s.regs
        ∧ ∀ (a : Nat) (bs : List Byte), a = s.recordAt n (s.trnRec n) y.num → bs = (s.recordBytes n y).1 →
            (s.settable a bs.length = true → s.hubWaits a bs.length = false → u.devBytes a bs.length = bs)
            ∧ ∀ b, (b < a ∨ a + bs.length ≤ b) → readAt 0 u.dev b = readAt 0 s.dev b)

/-- A delivered START is held by the operand of its sender; data that follow in order are added to the elements held, and
elements of a final shard are held for RESULT; FINAL gives the IN set; FAIL ends the instance as FAILED and counts it.
The second START of a module that had left itself out names the instance that has ended, and opens none. A message of
a job that no enabled group serves is dropped, counted and reported. One that would open an instance on a port that
holds 256 waits here, acknowledged: that the wait is at the receiver is the model's choice (log entry 77). Cites R276,
R289, R290, R291, R294, R336. -/
def Obligations.ReductionMessagesAct : Prop :=
  ∀ (h : MHdr) (d : Dest) (a s u : State), u = moduleDelivered h d a → u.redWaits = [] → u.voteWaits = [] →
    (∀ (x : RedStart) (g r : Nat) (i : Inst) (o : Operand), ModuleReady h (.redStart x) d a s → FromMember h x.name g r u →
      u.instOf g x.name = some i → i.ended = none → i.operandOf r = some o → o.empty = false → o.start = none →
      ∃ t i' o', exec (.redStart h x) s = .next t ∧ t.instOf g x.name = some i' ∧ i'.operandOf r = some o' ∧ o'.start = some x)
    ∧ (∀ (x : RedStart) (g r : Nat) (i : Inst), ModuleReady h (.redStart x) d a s → FromMember h x.name g r u →
      u.instOf g x.name = some i → i.repeats r x = true →
      exec (.redStart h x) s = .next
        (onOperand g x.name.entry.toNat x.name.k.toNat x.name.step.toNat r (fun o => { o with again := true }) u))
    ∧ (∀ (x : RedData) (g r : Nat) (i : Inst), ModuleReady h (.redData x) d a s → FromMember h x.name g r u →
      u.instOf g x.name = some i → i.ended = none → x.elems.length = x.count.toNat * opBytes i.op →
      x.count.toNat ≤ dataCap i.op → x.offset.toNat + x.count.toNat ≤ i.nelem →
      (∀ o : Operand, x.shard.toNat = 0xFFFF → i.op ≠ 7 → i.operandOf r = some o → o.empty = false → o.start ≠ none →
        x.offset.toNat = o.elems.length →
        ∃ t i' o', exec (.redData h x) s = .next t ∧ t.instOf g x.name = some i' ∧ i'.operandOf r = some o'
          ∧ o'.elems = o.elems ++ redValues x i.op)
      ∧ (x.shard.toNat < (u.gcfg g).nrank → (shardOf i.nelem (u.gcfg g).nrank x.shard.toNat).1 ≤ x.offset.toNat →
        x.offset.toNat + x.count.toNat ≤ (shardOf i.nelem (u.gcfg g).nrank x.shard.toNat).2 →
        (if i.op = 7 then x.shard.toNat = r else r = (u.gcfg g).finalRank) →
        ∃ t i', exec (.redData h x) s = .next t ∧ t.instOf g x.name = some i'
          ∧ ∀ j, j < x.count.toNat → (i'.shards.any fun p => p.1 == x.offset.toNat + j) = true))
    ∧ (∀ (x : RedFinal) (g r : Nat) (i : Inst), ModuleReady h (.redFinal x) d a s → FromMember h x.name g r u →
      r = (u.gcfg g).finalRank → x.name.entry.toNat ≠ 0xFFF → x.vote = 0 → u.instOf g x.name = some i → i.ended = none →
      i.final = none →
      ∃ t i', exec (.redFinal h x) s = .next t ∧ t.instOf g x.name = some i' ∧ i'.final = some (x.nin.toNat, x.inmap))
    ∧ (∀ (n : InstName) (g r : Nat), ModuleReady h (.redFail n) d a s → FromMember h n g r u → n.entry.toNat ≠ 0xFFF →
      (∀ i, u.instOf g n = some i → i.ended = none) → (u.instOf g n = none → u.portInsts (u.groupPort g) < 256) →
      ∃ t i', exec (.redFail h n) s = .next t ∧ t.instOf g n = some i' ∧ i'.ended = some 2
        ∧ t.grtFails = sat32 (u.grtFails + 1) ∧ (t.group g).failed = sat32 ((u.group g).failed + 1))
    ∧ ∀ (c : Instr) (m : Msg) (n : InstName), ((∃ x, c = .redStart h x ∧ m = .redStart x ∧ n = x.name)
        ∨ (∃ x, c = .redData h x ∧ m = .redData x ∧ n = x.name) ∨ (∃ x, c = .redFinal h x ∧ m = .redFinal x ∧ n = x.name)
        ∨ (c = .redFail h n ∧ m = .redFail n)) →
      ModuleReady h m d a s →
      (u.groupOf n.job.toNat = none → exec c s = .next (note 0x0404 1 u.tsc.now srcFirmware n.job.toNat 0 n.job.toNat
        { u with grtDropped := sat32 (u.grtDropped + 1) }))
      ∧ (u.redBlocked h.srcMod.toNat m = true →
        exec c s = .next { u with redWaits := [(h.srcMod.toNat, m)] })

/-- A queued trigger of an entry with a free place, on a port with a free place, starts the next instance of its name when
none that waits on the port has an earlier deadline. At D plus the depth times GRACE, an operand of that depth whose
START has not come is taken as empty, and a module whose own trigger has not come is OUT, LATE. When FAIL_US runs out
with data missing, the instance is FAILED here and FAIL goes to every member. A remote flag that has not come by
VOTE_US times its depth counts as set; with no verdict by R296 the slot halts for good. The statement is of a state in
which no message and no vote waits for a place. Cites R281, R282, R289, R290, R294, R295, R296. -/
def Obligations.ReductionsStartAndTimeOut : Prop :=
  ∀ (s : State), s.shaped = true → s.redWaits = [] → s.voteWaits = [] →
    (∀ (t t0 src : Nat) (g : Fin 16) (entry : BitVec 12) (cmd : Option Nat) (rest : List (Nat × Nat × Nat × Option Nat × Nat)),
      (s.gcfg g).on = true → s.mayStart g entry.toNat = true →
      Group.takeQueued entry.toNat (s.group g).queued = (some (t0, src, cmd), rest) →
      (∀ v ∈ s.waitingStarts (s.groupPort g), startsBefore v (s.deadline (s.entry (s.gcfg g) entry.toNat).dlNs
        (s.entry (s.gcfg g) entry.toNat).dlStitch, (s.gcfg g).job, g.val, entry.toNat) = false) →
      ∃ u i, exec (.triggerQueuedStart t g entry) s = .next u ∧ Ticked t s u
        ∧ (u.group g).inst entry.toNat ((s.group g).kOf entry.toNat (s.stepOf cmd) % 65536) (s.stepOf cmd) = some i
        ∧ i.triggered = true ∧ i.crossT = t0 ∧ i.crossSrc = src ∧ i.cmd = cmd
        ∧ (u.group g).kOf entry.toNat (s.stepOf cmd) = (s.group g).kOf entry.toNat (s.stepOf cmd) + 1)
    ∧ (∀ (n : InstName) (level g d : Nat) (c : GCfg) (i : Inst), s.timed n = some (g, c, i) → s.instD i = some d →
      c.forced = false → i.op ≠ 7 → n.entry.toNat ≠ 0xFFF → 1 ≤ level →
      ∃ u i', exec (.operandTimeout n level) s = .next u ∧ Ticked (d + level * c.graceNs) s u ∧ u.instOf g n = some i'
        ∧ (level = 1 → i.triggered = false → i.ownEmpty = false → s.crossed g i = false → i'.ownEmpty = true ∧ i'.dec = 2)
        ∧ ∀ (y : Src) (o : Operand), y ∈ c.srcs → y.depth = level → i.operandOf y.rank = some o → o.known = false →
            ∃ o', i'.operandOf y.rank = some o' ∧ o'.empty = true)
    ∧ (∀ (n : InstName) (g t : Nat) (c : GCfg) (i : Inst), s.timed n = some (g, c, i) → s.failAt c i = some t →
      n.entry.toNat ≠ 0xFFF → i.short c = true →
      ∃ u i', exec (.instanceFailTimeout n) s = .next u ∧ Ticked t s u ∧ u.instOf g n = some i' ∧ i'.ended = some 2
        ∧ u.grtFails = sat32 (s.grtFails + 1)
        ∧ ∀ r ∈ c.others, (∃ m ∈ u.unacked, m.dest = .reduction (s.memberOf c r) ∧ m.body = .redFail (i.name c.job))
            ∨ (.reduction (s.memberOf c r), .redFail (i.name c.job)) ∈ u.queued)
    ∧ (∀ (slot : Fin 16) (level g : Nat) (c : GCfg) (x : TStep) (i : Inst), s.votingOn slot = some (g, c, x) →
      (s.group g).inst 0xFFF 0 x.num = some i → i.ended = none → (∀ q ∈ (s.group g).queued, q.1 ≠ 0xFFF) → 1 ≤ level →
      ∃ u i', exec (.voteTimeout slot level) s = .next u ∧ Ticked (x.votingAt + level * c.voteNs) s u
        ∧ (u.group g).inst 0xFFF 0 x.num = some i'
        ∧ ∀ (y : Src) (o : Operand), y ∈ c.srcs → y.depth = level → i.operandOf y.rank = some o → o.empty = false →
            (o.start.isSome && o.whole) = false → ∃ o', i'.operandOf y.rank = some o' ∧ o'.empty = true ∧ o'.elems = [1])
    ∧ ∀ (slot : Fin 16) (g : Nat) (c : GCfg) (x : TStep), s.votingOn slot = some (g, c, x) →
      ∃ u, exec (.grtVerdictLost slot) s = .next u ∧ Ticked (x.votingAt + (c.levels + c.teams + 1) * c.voteNs) s u
        ∧ u.slot slot = { s.slot slot with halt := some .verdictLost } ∧ (∀ k, k ≠ slot.val → u.slot k = s.slot k)
        ∧ u = { s with tsc := u.tsc, slots := u.slots, log := u.log }

/-- A migration or an arrival changes where one page lies, in which tier and on which stack, and since when, and not one
byte: a home that may move to a place lies there, a copy that arrives is added, and reads that waited for a copy that
has come no longer wait. That an arrival from flash counts one read of each block the page lies in is the model's
choice (log entry 72), as is which stack a copy that a waiting read brings to T1 lies on (log entry 23). The deadline
of a schedule entry decides it as R225 or R229 says, counts a miss, and records the outcome in the slot's log. Cites
R218, R219, R223, R224, R225, R228, R229. -/
def Obligations.PagesArriveAndEntriesAreDecided : Prop :=
  ∀ (s : State), s.shaped = true →
    (∀ (t p : Nat) (a : PageAt), s.clockless = false → s.mayMigrate p a = true →
      ∃ u, exec (.migrationSwitch t p a) s = .next u ∧ Ticked t s u
        ∧ ((s.page p).kind = .writable → exec (.pageArrival t p a) s = .next u ∧ (u.page p).home = tierAt a)
        ∧ ((s.page p).kind ≠ .writable → (u.page p).home = (s.page p).home)
        ∧ (∀ k : Fin 8, a = .t1 k → (u.page p).stack = k.val) ∧ (a = .t2 → (u.page p).stack = (s.page p).stack)
        ∧ (((s.page p).inTierT (tierAt a) = true
            ∧ u.page p = { s.page p with home := (u.page p).home, stack := (u.page p).stack })
          ∨ ((s.page p).inTierT (tierAt a) = false ∧ u.page p
            = ({ s.page p with home := (u.page p).home, stack := (u.page p).stack } : Page).reach (tierAt a) (max s.tsc.now t)))
        ∧ (∀ q, q ≠ p → u.page q = s.page q) ∧ u = { s with tsc := u.tsc, pages := u.pages })
    ∧ (∀ (t p : Nat) (a : PageAt) (v : State), s.clockless = false → s.mayArrive p a = true →
      ((s.page p).kind = .library ∧ (s.page p).loading = false) ∨ ((s.page p).kind = .lent ∧ (s.page p).copies ≠ []) →
      v = bringCopy p a (readFlash p (tick t s)) →
      (s.waitReads = [] → exec (.pageArrival t p a) s = .next v) ∧ tierAt a ∈ (v.page p).copies
      ∧ (∀ k : Fin 8, a = .t1 k → .t1 ∉ (s.page p).copies → (v.page p).stack = k.val)
      ∧ (.t1 ∈ (s.page p).copies → (v.page p).stack = (s.page p).stack)
      ∧ ((∀ g, hintOnce (s.page g).hint = false) →
        ∃ u, exec (.pageArrival t p a) s = .next u ∧ u.pages = v.pages ∧ u.dev = s.dev ∧ u.tsc = v.tsc
          ∧ u.waitReads = s.waitReads.filter fun w => !(v.readable w.addr w.len)))
    ∧ ∀ (n : Fin 16) (e d a : Nat) (c : Sched) (w : Window) (o : Outcome) (ev : Option (Nat × Nat)), c = s.sched n →
      (c.windows.find? fun w => w.entry == e && !w.decided) = some w → c.on = true → d = s.schedDeadline c w →
      (c.windows.any fun v => !v.decided && (decide (s.schedDeadline c v < d)
        || (s.schedDeadline c v == d && decide (v.entry < w.entry)))) = false →
      s.schedOutcome c w d = (o, ev) → a = c.dlog + 8 * c.used →
      ∃ u, exec (.scheduleDeadline n e) s = .next u ∧ Ticked d s u
        ∧ (u.sched n).windows = updateWhere (fun v => v.entry == w.entry)
            (fun v => { v with decided := true, outcome := o, deadline := d }) c.windows
        ∧ (u.sched n).misses = (if o = .none then c.misses else sat32 (c.misses + 1))
        ∧ (∀ k, k ≠ n.val → u.sched k = s.sched k) ∧ u.pages = s.pages
        ∧ (o = .none → u.dev = s.dev)
        ∧ (o ≠ .none → c.used < c.dlogCap → s.inWritable a 8 = true → s.poisoned a 8 = false → s.hubWaits a 8 = false →
            (u.sched n).used = c.used + 1 ∧ u.devBytes a 8 = leBytes 8 (dlogRecord w o)
            ∧ ∀ b, (b < a ∨ a + 8 ≤ b) → readAt 0 u.dev b = readAt 0 s.dev b)

/-- A page command places its result before it is answered. One that the check of R216 refuses changes nothing else. MAP,
UNMAP and HINT that pass are requested, to take effect at a boundary; MOVE of migration by the host moves the pages at
once, and not one byte of them, to the tier where it has room and in T1 to the tree the hint names, a LENT page
without a copy being fetched for the tier (what a MOVE without room does is the model's choice, log entry 9); QUERY
places the state of the page. A JOB session is denied. Cites R211, R213, R215, R216, R413, R444. -/
def Obligations.PageCommandsAreCheckedAndPlaced : Prop :=
  ∀ (h : Hdr) (x : Session) (s d : State) (o : PgOp) (c : Instr) (addr count hint : Nat) (r : Nat × Nat), HostReady h x s →
    d = delivered h s → addr = d.reg64 0x50120 → count = bits (d.reg 0x50128) 0 17 →
    hint = bits (d.reg 0x5012C) 0 16 → r = d.pgCheck o addr count hint →
    (o, c) ∈ [(PgOp.nop, Instr.nop h), (.map, .map h), (.unmap, .unmap h), (.hint, .hint h), (.move, .move h), (.query, .query h)] →
    (x.cls = 2 → exec c s = .next (answered h x 2 (noteDenied x.sid d)))
    ∧ (x.controls → (r.2 ≠ 0 ∨ o = .nop) → exec c s = .next (answered h x 0 { d with pgResult := r }))
    ∧ (x.controls → r.2 = 0 → o = .query →
        exec c s = .next (answered h x 0 { d with pgResult := r, pgState := d.queryWord (pageOf addr) }))
    ∧ (x.controls → r.2 = 0 → ∀ op, (o, op) ∈ [(PgOp.map, MapOp.map (pageOf addr) count hint),
          (.unmap, .unmap (pageOf addr) count), (.hint, .hint (pageOf addr) count hint)] →
        exec c s = .next (answered h x 0 { d with pgResult := r, mapReqs := d.mapReqs ++ [⟨d.tsc.now, op, 0⟩] }))
    ∧ (x.controls → r.2 = 0 → o = .move →
        ∃ t k, exec c s = .next (answered h x 0 t) ∧ tierOf (hintPrefer hint) = some k ∧ t.dev = d.dev ∧ t.pgResult = r
          ∧ (∀ g, ¬(pageOf addr ≤ g ∧ g < pageOf addr + count) → t.page g = d.page g)
          ∧ (∀ g, pageOf addr ≤ g → g < pageOf addr + count →
              (t.page g).kind = (d.page g).kind ∧ (t.page g).hint = (d.page g).hint ∧ (t.page g).lost = (d.page g).lost
              ∧ ((t.page g).home = k ∨ (t.page g).home = (d.page g).home)
              ∧ ((d.page g).kind = .library → (d.page g).loading = false →
                  (t.page g).copies = (d.page g).pinned.filter (· != k) ++ [k])
              ∧ ((d.page g).kind = .lent → (d.page g).copies = [] →
                  t.page g = { d.page g with bound := (d.page g).bound ++ (if (d.page g).bound.contains k then [] else [k]) }))
          ∧ ∀ g, count = 1 → g = pageOf addr → ((d.page g).kind ≠ .lent ∨ (d.page g).copies ≠ []) →
              t.page g = Page.moved k d.tsc.now (d.page g) (Page.moveTo d.room d.pages g k (d.page g)))

/-- EDG_CLOSE closes the session it names, whose commands run on, and no other. RELOAD has the peer table read at the next
boundary. RETRAIN takes the port's link down and leaves the other ports as they are. SPR_SUBST with GO substitutes a
ready spare of the tree for a vacant logical number at the next boundary, in host-assisted mode; otherwise it is
refused. Cites R304, R312, R321, R354, R372. -/
def Obligations.EdgeAndSpareWrites : Prop :=
  ∀ (h : Hdr) (x : Session) (s d : State), HostReady h x s → d = delivered h s → x.controls →
    (∀ sid : BitVec 24,
      ((d.session sid.toNat).any (fun y => y.phase != .pending) = true →
        ∃ t, exec (.edgCloseWrite h sid) s = .next (answered h x 0 t) ∧ t.session sid.toNat = none
          ∧ (∀ m ∈ t.unacked, m.dest ≠ .session sid.toNat)
          ∧ ((ckpBusy d.ckp.phase = true → d.nothingHeld) →
            (∀ k, k ≠ sid.toNat → t.session k = d.session k) ∧ t.cmds = d.cmds ∧ t.dev = d.dev ∧ t.regs = d.regs))
      ∧ ((d.session sid.toNat).all (fun y => y.phase == .pending) = true →
        exec (.edgCloseWrite h sid) s = .next (answered h x 0 d)))
    ∧ (∀ count : BitVec 16, count.toNat ≤ 0xFFFE →
      exec (.peerReload h count) s
        = .next (answered h x 0 { setReg 0x90110 count.toNat d with peerReload := true }))
    ∧ (∀ p : Fin 8, bit (d.reg (portAddr p 0x104)) 19 = false →
      ∃ t, exec (.retrain h p) s = .next (answered h x 0 t) ∧ (t.port p).link = false
        ∧ t.port p = { d.port p with link := false, secured := (d.port p).secured && !(d.port p).link
                                     failed := if (d.port p).link then 0 else (d.port p).failed }
        ∧ (∀ q, q ≠ p.val → t.port q = d.port q) ∧ t.dev = d.dev ∧ t.cmds = d.cmds)
    ∧ ∀ (logical : Byte) (tree : Fin 4) (index : BitVec 6) (y : Nat) (e : State), logical.toNat ≤ 127 → 32 ≤ index.toNat →
      index.toNat ≤ 35 → y = 36 * tree.val + index.toNat →
      e = setReg 0xA011C (logical.toNat * 2 ^ 16 + tree.val * 2 ^ 8 + index.toNat) d →
      exec (.sprSubst h logical tree index) s = .next (
        if d.hostSpare && (d.physOf logical.toNat).isNone && decide (logical.toNat / 32 = tree.val) && (d.cl y).ready
            && !(d.spr.changes.any fun c => c.takes y || c.numbers logical.toNat) then
          answered h x 0 { e with spr := { e.spr with changes := e.spr.changes ++ [.subst y logical.toNat] } }
        else answered h x 1 e)

/-- Each acts only for a session that the policy or its key slot lets: a reset is ordered 100 µs after the response, an
update, a commit or a staging begins where none is in progress. REQ ON wakes a module in IDLE, REQ IDLE is accepted
only of a module at rest, and REQ OFF takes the module to OFF at once, with no answer. Cites R375, R385, R393, R394,
R413, R414, R430, R431, R432. -/
def Obligations.SecurityBootAndPowerWrites : Prop :=
  ∀ (h : Hdr) (x : Session) (s d : State), HostReady h x s → d = delivered h s →
    (x.controls → (x.cls = 3 ∨ d.policy 3 = true) → d.sec.resetAt = none →
      ∃ t, exec (.secResetGo h) s = .next t
        ∧ t.sec = { d.sec with resetAt := some (((Bus.start d).reach none).cycle.now d.tsc.now + 400 + 100000) }
        ∧ (d.busAt ≤ 21 * d.tsc.now + 12600 → t.sec = { d.sec with resetAt := some (d.tsc.now + 601 + 400 + 100000) })
        ∧ t.dev = d.dev ∧ t.cmds = d.cmds ∧ t.regs = d.regs ∧ t.pwr = d.pwr)
    ∧ ((x.cls = 2 ∨ (x.cls = 1 ∧ d.policy 3 = false)) →
      exec (.secResetGo h) s = .next (answered h x 2 (noteDenied x.sid d)))
    ∧ (x.controls →
      exec (.update h) s = .next (
        if d.policy 1 = false then answered h x 2 (noteDenied x.sid d)
        else if d.sec.upd.isSome then answered h x 1 d
        else answered h x 0 { d with
          sec := { d.sec with upd := some (.image x.sid (d.reg64 0xC0120, d.reg 0xC0128)) } })
      ∧ exec (.commitSvn h) s = .next (
        if d.policy 2 = false then answered h x 2 (noteDenied x.sid d)
        else if d.sec.upd.isSome then answered h x 1 d
        else answered h x 0 { d with sec := { d.sec with upd := some .svn } })
      ∧ exec (.secKsGo h) s = .next (
        if (d.keySlot x.slot).provision = false then answered h x 2 (noteDenied x.sid d)
        else if d.sec.ksBusy.isSome then answered h x 1 d
        else answered h x 0 { d with
          sec := { d.sec with ksBusy := some (x.sid, d.reg64 0xD0120) } })
      ∧ exec (.pwrReqOn h) s = .next (answered h x 0
          (if d.pwr.state = .idle ∧ d.pwr.waking = false then { d with pwr := { d.pwr with waking := true, wokeAt := d.tsc.now } } else d))
      ∧ exec (.pwrReqIdle h) s = .next (
        if d.pwr.state = .idle then answered h x 0 d
        else if d.mayIdle then answered h x 0 { d with pwr := { d.pwr with idlePend := true } }
        else answered h x 1 d)
      ∧ exec (.pwrReqOff h) s = .next (d.enterOff d.pwr.pwrEn true))
    ∧ (x.cls = 2 → ∀ c ∈ [Instr.update h, .commitSvn h, .secKsGo h, .pwrReqOn h, .pwrReqIdle h, .pwrReqOff h],
      exec c s = .next (answered h x 2 (noteDenied x.sid d)))

/-- ARM is accepted where the conditions of R366 hold, and arms a checkpoint; CANCEL ends one in progress as ABORTED with
cause 1. In host-assisted mode, while WAITING, CKP_RELEASE lets one page go and CKP_DONE ends the checkpoint; at any
other time both are refused. A first write to pages still to be streamed has them copied while the buffer has room.
Cites R366, R368, R369, R370, R373. -/
def Obligations.CheckpointsAreArmedAndReleased : Prop :=
  (∀ (h : Hdr) (x : Session) (s d : State), HostReady h x s → d = delivered h s → x.controls →
    (∀ (slot : Fin 16) (e : State), e = setReg 0xB0100 slot.val d →
      (ckpBusy d.ckp.phase = false → exec (.ckpArm h slot) s = .next (
        if e.trnOn slot && !e.stepRetired slot e.ckpStep && (e.hostCkp || (e.session e.ckpSid).any fun y => y.phase == .open_) then
          answered h x 0 { e with ckp := { Ckp.reset with phase := .armed, cause := d.ckp.cause } }
        else answered h x 1 e))
      ∧ (ckpBusy d.ckp.phase = true → ∃ t, exec (.ckpArm h slot) s = .next (answered h x 1 t) ∧ t.ckp = d.ckp ∧ t.dev = d.dev))
    ∧ (∃ t, exec (.ckpCancel h) s = .next (answered h x 0 t)
      ∧ (if ckpBusy d.ckp.phase then t.ckp.phase = .aborted ∧ t.ckp.cause = 1 ∧ t.ckp.pages = [] ∧ t.ckp.stream = []
         else t.ckp = d.ckp))
    ∧ (∀ (hi : Reg32) (a : Nat), a = d.reg 0xB0130 + hi.toNat * 2 ^ 32 →
      ((d.ckp.phase ≠ .waiting ∨ d.hostCkp = false) → exec (.ckpRelease h hi) s = .next (answered h x 1 d))
      ∧ (d.ckp.phase = .waiting → d.hostCkp = true → a % pageSize ≠ 0 →
          exec (.ckpRelease h hi) s = .next (answered h x 1 d))
      ∧ (d.ckp.phase = .waiting → d.hostCkp = true → a % pageSize = 0 →
          (∃ t, exec (.ckpRelease h hi) s = .next (answered h x 0 t) ∧ pageOf a ∉ t.ckp.pages)
          ∧ (d.nothingHeld → exec (.ckpRelease h hi) s = .next (answered h x 0 { d with
              ckp := { d.ckp with pages := d.ckp.pages.filter fun g => g != pageOf a } }))))
    ∧ ((d.ckp.phase ≠ .waiting ∨ d.hostCkp = false) → exec (.ckpDone h) s = .next (answered h x 1 d))
    ∧ (d.ckp.phase = .waiting → d.hostCkp = true →
      ∃ t, exec (.ckpDone h) s = .next (answered h x 0 t) ∧ t.ckp.phase = .done ∧ t.ckp.pages = []
        ∧ (d.nothingHeld → t.dev = d.dev ∧ t.cmds = d.cmds ∧ t.regs = d.regs)))
  ∧ ∀ (t n : Nat) (s : State) (w : DevWrite) (hit : List Nat), (s.writes.find? fun v => v.id == n) = some w →
    hit = (pagesOf w.addr w.bytes.length).filter (fun g => s.ckp.pages.contains g) →
    exec (.ckpFirstWrite t n) s = .next (
      if s.ckp.phase = .streaming ∧ hit ≠ [] ∧ s.ckp.copied.length + hit.length ≤ s.ckpBuffer then
        { tick t s with ckp := { s.ckp with
          pages := s.ckp.pages.filter (fun g => !hit.contains g), copied := s.ckp.copied ++ hit } }
      else s)

/-- A relocation that is due, by 50,000 reads since the block was programmed or by wear, moves what the block held to a
free block of its channel, the least worn or for wear the most worn, has the map of LIBRARY pages name that block, and
erases the first; a failed one, or a second read at the last retry level, moves it likewise and retires the block; a
scan counts one read of it, and one that needed read retry relocates it. In host-assisted mode the layer only reports
what is due, until 100,000 reads, and SBG_FTL_CMD orders it. No byte of device memory changes, nothing happens to a
retired block, and nothing while the module is held in reset or off. Which channel a block lies on is the model's
reading (log entry 24), and so are what counts as wear and where a LIBRARY page is placed (log entry 72). Cites R234,
R235, R237, R345, R430. -/
def Obligations.FlashBlocksAreMovedAndRetired : Prop :=
  (∀ (t : Nat) (b : BitVec 21) (failed retry last : Bool) (s v : State) (k : FlashBlock), s.shaped = true → k = s.block b.toNat →
    v = onBlock b.toNat (fun k => { k with reads := k.reads + 1, lastLevels := k.lastLevels + b2n last })
      { s with ftl := { s.ftl with scans := s.ftl.scans.filter fun c => c != b.toNat } } →
    ((k.retired = true ∨ s.clockless = true) →
      exec (.ftlRelocation t b failed) s = .next s ∧ exec (.retentionScan t b retry last) s = .next s)
    ∧ (k.retired = false → s.clockless = false →
      (failed = false → s.relocationDue b.toNat = false → exec (.ftlRelocation t b failed) s = .next s)
      ∧ (failed = true →
        ∃ u, exec (.ftlRelocation t b failed) s = .next u ∧ Ticked t s u ∧ BlockRetired b.toNat s u
          ∧ u = { s with tsc := u.tsc, ftl := u.ftl, log := u.log })
      ∧ (failed = false → s.relocationDue b.toNat = true →
        ∃ u, exec (.ftlRelocation t b failed) s = .next u ∧ Ticked t s u ∧ Relocated (decide (k.reads < 50000)) b.toNat s u
          ∧ u = { s with tsc := u.tsc, ftl := u.ftl, log := u.log })
      ∧ (∃ u, exec (.retentionScan t b retry last) s = .next u ∧ Ticked t s u
        ∧ u = { s with tsc := u.tsc, ftl := u.ftl, log := u.log, spr := u.spr }
        ∧ (if s.hostFtl = true ∧ s.ftl.scans.contains b.toNat = false then u.ftl = s.ftl ∧ u.spr = s.spr
          else
            (if retry then u.spr.lastCode = 0x15 ∧ u.spr.lastSource = srcFlash (b.toNat / 131072) else u.spr = s.spr)
            ∧ (if 2 ≤ k.lastLevels + b2n last then BlockRetired b.toNat v u
              else if retry = true ∧ s.hostFtl = false then Relocated false b.toNat v u
              else u.ftl = v.ftl)))))
  ∧ ∀ (h : Hdr) (x : Session) (s d : State) (b : BitVec 21), HostReady h x s → d = delivered h s → x.controls →
    ((d.hostFtl = false ∨ (d.block b.toNat).retired = true) →
      exec (.ftlCmdRelocate h b) s = .next (answered h x 0 d) ∧ exec (.ftlCmdRetentionScan h b) s = .next (answered h x 0 d))
    ∧ (d.hostFtl = true → (d.block b.toNat).retired = false →
      (∃ t, exec (.ftlCmdRelocate h b) s = .next (answered h x 0 t) ∧ Relocated false b.toNat d t
        ∧ t = { d with ftl := t.ftl, log := t.log })
      ∧ exec (.ftlCmdRetentionScan h b) s = .next (answered h x 0 { d with ftl := { d.ftl with
          scans := if d.ftl.scans.contains b.toNat then d.ftl.scans else d.ftl.scans ++ [b.toNat] } }))

/-- A read message of any session class returns one result for each access, in order: the value with OK, or NOREG where no
register is; nothing but latched high halves changes. A write is judged in this order: where no register is, it
receives NOREG; else a register that is locked for good ignores it, with OK; else what the session's class does not
permit is DENIED; else a reserved offset ignores it, with OK; and none of these changes a register. That DENIED comes
before the ignoring of a reserved offset is the model's reading (log entry 32, DEDUCED), and the bus cycle of an
access that receives NOREG its choice (log entry 44, DESIGN CHOICE). EVT_FILTER holds the severity written. A write of
one to a W1C bit clears it, and the fields its register clears with it; a write of zero leaves them. Cites R13, R14,
R42, R43, R69, R331, R401, R402, R411, R412, R417, R418. -/
def Obligations.RegistersReadAndWrite : Prop :=
  ∀ (h : Hdr) (x : Session) (s d : State), HostReady h x s → d = delivered h s →
    (∀ accs : List RegAccess, 1 ≤ accs.length → accs.length ≤ 64 → (∀ a ∈ accs, a.value = 0) →
      ∃ (t : State) (rs : List (Reg32 × Nat)),
        exec (.regRead h accs) s = .next (sendSession x.sid (.regResp h.seq.toNat rs) t) ∧ rs.length = accs.length
        ∧ t = { d with latches := t.latches, busAt := t.busAt }
        ∧ ∀ (i : Nat) (a : RegAccess), accs[i]? = some a →
          (d.locate a.addr.toNat = none → rs[i]? = some (0, 3)) ∧ (d.locate a.addr.toNat ≠ none → ∃ v, rs[i]? = some (v, 0)))
    ∧ (∀ (a : RegAccess) (l : Loc) (r : RegRow) (k : Nat), a.value = 0 → d.locate a.addr.toNat = some l → l.row = some (r, k) →
      r.lowHalf = false → d.latched l.addr = none →
      exec (.regRead h [a]) s = .next
        (sendSession x.sid (.regResp h.seq.toNat [(BitVec.ofNat 32 (d.regWord l (accessNow l d)), 0)]) (accessed l.tree d)))
    ∧ (d.latched 0x10110 = none → exec (.regRead h [⟨0x10110, 0⟩]) s = .next
        (sendSession x.sid (.regResp h.seq.toNat [(BitVec.ofNat 32 (
          (if d.sth.period < 100000 then (d.sth.period - 10000) * 21 / 20 else (d.sth.period - 50000) * 21 / 20)), 0)]) (accessed none d)))
    ∧ (∀ accs : List RegAccess, 1 ≤ accs.length → accs.length ≤ 64 → (∀ a ∈ accs, d.locate a.addr.toNat = none) →
      exec (.regWrite h accs) s = .next (sendSession x.sid (.regResp h.seq.toNat (accs.map fun _ => (0, 3)))
        { d with busAt := 21 * d.tsc.now + (Bus.start d).at21 + 20 * accs.length }))
    ∧ (∀ (a : RegAccess) (l : Loc), d.locate a.addr.toNat = some l →
      ((∃ r, l.row = some r ∧ r.1.locked = true) → exec (.regWrite h [a]) s = .next (answered h x 0 d l.tree))
      ∧ ((∀ r, l.row = some r → r.1.locked = false) → d.mayWrite (x.writer h.port) l a.value.toNat = false →
        exec (.regWrite h [a]) s = .next (answered h x 2 (noteDenied x.sid d) l.tree))
      ∧ (d.mayWrite (x.writer h.port) l a.value.toNat = true → l.row = none →
        exec (.regWrite h [a]) s = .next (answered h x 0 d l.tree)))
    ∧ (x.controls → ∀ v : Reg32, v.toNat ≤ 3 →
      exec (.regWrite h [⟨0x3010C, v⟩]) s = .next (answered h x 0 (setReg 0x3010C v.toNat d)))
    ∧ (x.controls → ∀ (v : Reg32) (n : Fin 16) (c : Fin 144),
      exec (.regWrite h [⟨0x20108, v⟩]) s = .next (answered h x 0 { d with tsc := { d.tsc with
        stepped := d.tsc.stepped && !v.getLsbD 2 } })
      ∧ exec (.regWrite h [⟨0xE013C, v⟩]) s = .next (answered h x 0 { d with pwr := { d.pwr with
        alarm := d.pwr.alarm - (d.pwr.alarm &&& v.toNat % 8) } })
      ∧ exec (.regWrite h [⟨BitVec.ofNat 64 (trnAddr n 0x0C), v⟩]) s = .next (answered h x 0
        (if v.getLsbD 1 then onSlot n (fun y => { y with diverge := false }) d else d))
      ∧ exec (.regWrite h [⟨BitVec.ofNat 64 (clusterAddr c 0 0x10C), v⟩]) s = .next (answered h x 0
        (if v.getLsbD 31 then onCl c (fun k => { k with mxaErr :=
          { k.mxaErr with err := false, code := 0, count := 0, ctx := 0 } }) d else d) (some (c.val / 36)))
      ∧ exec (.regWrite h [⟨BitVec.ofNat 64 (clusterAddr c 1 0x10C), v⟩]) s = .next (answered h x 0
        (if v.getLsbD 1 then onCl c (fun k => { k with run := { k.run with seqErr := false } }) d else d) (some (c.val / 36)))
      ∧ exec (.regWrite h [⟨BitVec.ofNat 64 (clusterAddr c 2 0x110), v⟩]) s = .next (answered h x 0
        (if v.getLsbD 31 then onCl c (fun k => { k with lchErr :=
          { k.lchErr with err := false, code := 0, count := 0, ctx := 0 } }) d else d) (some (c.val / 36)))
      ∧ exec (.regWrite h [⟨BitVec.ofNat 64 (clusterAddr c 3 0x110), v⟩]) s = .next (answered h x 0
        (if v.getLsbD 31 then onCl c (fun k => { k with pmcErr :=
          { k.pmcErr with err := false, code := 0, count := 0, ctx := 0 } }) d else d) (some (c.val / 36))))

/-- A HELLO is answered with CHALLENGE and a reservation under the next free identifier; a repeat with the same CHALLENGE;
one that R320 refuses with REJECT, counted, and no reservation. A correct PROOF opens the session under its reserved
identifier, with the key Ks and ACCEPT kept until acknowledged. A wrong one is refused, the eighth within 10 s locking
the slot for 10 s; one for a reservation released is EXPIRED, one for another module dropped. A reservation is
released after 1 s, and a lock ends after 10 s. Cites R318, R319, R320, R321. -/
def Obligations.SessionsOpenByHandshake : Prop :=
  (∀ (t src : Nat) (port : Fin 8) (p : Hello) (s u : State), PortReady port s → u = counted t port s →
    ((p.rsv ≠ 0 ∨ p.nh.length ≠ 32) → exec (.hello t port src p) s = .next { u with drops := sat32 (u.drops + 1) })
    ∧ (p.rsv = 0 → p.nh.length = 32 →
      (∀ x, (u.sessions.find? fun x => x.phase == .pending && x.nh == p.nh && x.src == src) = some x →
        exec (.hello t port src p) s = .next
          (emit (some port) (.host src) none false (.challenge x.sid u.modnum x.maxp 0x00010000 x.nh x.nm) u))
      ∧ ((u.sessions.find? fun x => x.phase == .pending && x.nh == p.nh && x.src == src) = none →
        (u.helloReason p = none →
          ∃ w x, exec (.hello t port src p) s = .next w ∧ w.sessions = u.sessions ++ [x] ∧ x.phase = .pending
            ∧ x.sid = u.freeSid 64 u.nextSid ∧ x.cls = p.cls.toNat ∧ x.slot = p.slot.toNat ∧ x.job = p.job.toNat
            ∧ x.maxp = p.maxp.toNat ∧ x.resume = p.resume.toNat ∧ x.nh = p.nh ∧ x.src = src ∧ x.since = u.tsc.now
            ∧ x.sub = none ∧ x.chan = Chan.reset
            ∧ Replied port src (.challenge x.sid u.modnum x.maxp 0x00010000 x.nh x.nm) u w
            ∧ w.dev = u.dev ∧ w.regs = u.regs ∧ w.cmds = u.cmds)
        ∧ (∀ r, u.helloReason p = some r →
          ∃ w, exec (.hello t port src p) s = .next w ∧ Replied port src (.reject r 0 p.nh) u w
            ∧ w.authFails = sat32 (u.authFails + 1)
            ∧ w = { u with authFails := w.authFails, log := w.log, tx := w.tx, ports := w.ports }))))
  ∧ (∀ (h : Hdr) (p icv : List Byte) (s u : State), PortReady h.port s → u = counted h.t h.port s →
    (u.forMe (.session h.chan.toNat) h.dst.toNat = false → exec (.proof h p icv) s = .next { u with drops := sat32 (u.drops + 1) })
    ∧ (u.forMe (.session h.chan.toNat) h.dst.toNat = true →
    (∀ x key, u.session h.chan.toNat = some x → x.phase = .pending → h.seq = 0 → p.length = 48 →
      (u.keySlot x.slot).key = some key → icv = hostIcv h 0x03 (x.keyFrom key) p → p = hmac384 key (ascii "EDGIL-OPEN" ++ x.proofBytes) →
      (u.sessionsHeld < 32 ∨ (x.resume ≠ 0 ∧ u.resumable x.resume x.slot x.cls = true)) → x.resume ≠ x.sid →
      ∃ w y, exec (.proof h p icv) s = .next w ∧ w.session x.sid = some y ∧ y.phase = .open_ ∧ y.cls = x.cls ∧ y.slot = x.slot
        ∧ y.job = x.job ∧ y.src = h.src ∧ y.port = h.port.val
        ∧ y.ks = (hmac384 key (ascii "EDGIL-SKEY" ++ (x.nh ++ x.nm ++ beBytes 4 x.sid))).take 32
        ∧ (∃ m ∈ w.unacked, m.dest = .session x.sid ∧ m.seq = 0 ∧ ∃ b, m.body = .accept x.sid
            (hmac384 key (ascii "EDGIL-ACPT" ++ (x.nh ++ x.nm ++ beBytes 4 x.sid))) b)
        ∧ (x.resume ≠ 0 → u.resumable x.resume x.slot x.cls = true → w.session x.resume = none)
        ∧ w.dev = u.dev ∧ w.regs = u.regs)
    ∧ (∀ x, u.session h.chan.toNat = some x → x.phase = .pending → h.seq = 0 → p.length = 48 → u.proofWrong h x p icv →
      ∃ w, exec (.proof h p icv) s = .next w ∧ Replied h.port h.src (.reject 2 x.sid x.nh) u w
        ∧ w.authFails = sat32 (u.authFails + 1) ∧ w.sessions = u.sessions ∧ w.dev = u.dev ∧ w.regs = u.regs
        ∧ w.locks = (if 8 ≤ ((u.refusals.filter fun r => decide (u.tsc.now < r.2 + 10000000000)).filter
              fun r => r.1 == x.slot).length + 1 ∧ u.locks.getD x.slot none = none then
            setAt u.locks x.slot (some (u.tsc.now + 10000000000)) else u.locks))
    ∧ (∀ (slot : Nat) (nh : List Byte), u.session h.chan.toNat = none →
      (u.expired.find? fun e => e.1 == h.chan.toNat) = some (h.chan.toNat, slot, nh) →
      ∃ w, exec (.proof h p icv) s = .next w ∧ Replied h.port h.src (.reject 6 h.chan.toNat nh) u w
        ∧ w.authFails = sat32 (u.authFails + 1) ∧ w.sessions = u.sessions)))
  ∧ (∀ (sid : Nat) (s : State) (x : Session), s.session sid = some x → x.phase = .pending →
    exec (.proofReservationExpire sid) s = .next { tick (x.since + 1000000000) s with
      sessions := s.sessions.filter (fun y => y.sid != sid), expired := s.expired ++ [(sid, x.slot, x.nh)] })
  ∧ ∀ (slot : Fin 8) (e : Nat) (s : State), s.locks.getD slot none = some e →
    exec (.slotLockExpire slot) s = .next { tick e s with locks := setAt s.locks slot none }

/-- A session that closes, or whose lingering ends, is gone with what it had not been sent; its commands run on. One idle
for IDLE_S is lost and lingers. An ACK lets go what it acknowledges. A kept message is sent again as it was, and after
12 retransmissions a host session is lost. A duplicate is acknowledged again and never acted on. Cites R321, R322,
R323, R324. -/
def Obligations.SessionsEndAndMessagesAreRepeated : Prop :=
  (∀ (h : Hdr) (x : Session) (s : State), HostReady h x s →
    ∃ t, exec (.close h) s = .next t ∧ SessionGone x.sid (delivered h s) t)
  ∧ (∀ (sid : Nat) (x : Session) (s : State), s.session sid = some x →
    (x.phase = .open_ → ∃ u, exec (.sessionIdleTimeout sid) s = .next u ∧ Ticked (x.since + s.idleNs) s u
      ∧ u.session sid = some { x with phase := .linger, since := u.tsc.now }
      ∧ u = { s with tsc := u.tsc, sessions := u.sessions, log := u.log })
    ∧ (x.phase = .linger → ∃ u, exec (.lingerEnd sid) s = .next u ∧ Ticked (x.since + s.lingerNs) s u ∧ SessionGone sid s u))
  ∧ (∀ (h : Hdr) (m : BitVec 16) (n : Reg32) (d : Dest) (s u : State), PortReady h.port s → u = counted h.t h.port s →
    h.ack = some n → u.ackDest h.chan.toNat m.toNat = some d → u.forMe d h.dst.toNat = true → seqBefore (u.chan d).txNext n.toNat = false →
    exec (.ack h m) s = .next (windowOpens d { u with
      unacked := u.unacked.filter fun k => k.dest != d || !seqBefore k.seq n.toNat }))
  ∧ (∀ (c : ChanRef) (q : Reg32) (m : Unacked) (s : State), (s.unacked.find? fun k => k.dest == Dest.ofRef c && k.seq == q.toNat) = some m →
    s.retxOn (Dest.ofRef c) = true →
    ((∀ sid, c = .session sid → m.tries < 12) →
      exec (.retxTimer c q) s = .next (transmit (Dest.ofRef c) (some m.seq) true m.body
        { tick (m.last + s.retxAfter (Dest.ofRef c) m.tries) s with
          unacked := updateWhere (fun v => v.dest == Dest.ofRef c && v.seq == m.seq)
            (fun v => { v with last := max s.tsc.now (m.last + s.retxAfter (Dest.ofRef c) m.tries), tries := v.tries + 1 }) s.unacked }))
    ∧ (∀ sid x, c = .session sid → 12 ≤ m.tries → s.session sid = some x →
      ∃ u, exec (.retxTimer c q) s = .next u ∧ Ticked (m.last + s.retxAfter (.session sid) m.tries) s u
        ∧ u.session sid = some { x with phase := .linger, since := u.tsc.now } ∧ u.unacked = s.unacked ∧ u.tx = s.tx))
  ∧ ∀ (h : Hdr) (x : Session) (s : State) (c : Instr), PortReady h.port s →
    (∃ accs, c = .regWrite h accs ∧ 1 ≤ accs.length ∧ accs.length ≤ 64) ∨ (∃ a data, c = .dataWrite h a data ∧ data.bytes.length ≤ 8176)
      ∨ (∃ tag, c = .abort h tag) ∨ c = .close h →
    s.forMe (.session h.chan.toNat) h.dst.toNat = true → s.session h.chan.toNat ≠ none → (s.session h.chan.toNat).all (fun y => y.phase != .pending) = true →
    (heard h s).session h.chan.toNat = some x → 2 ^ 31 ≤ (h.seq.toNat + 2 ^ 32 - x.chan.rxNext) % 2 ^ 32 →
    exec c s = .next (sendAck (.session h.chan.toNat) x.chan.rxNext (heard h s))

/-- A transfer that R332 refuses is answered with its status and moves nothing; one that is misaligned, short or out of
range receives RANGE whatever other status applies, which is the model's choice (log entry 37, DEDUCED: R332 orders no
statuses). A write is on its way to its tier, all of its bytes; a read of present pages returns the bytes as they
stand; one that meets an absent page waits. EVENT_SUB begins or ends a subscription. A load is begun, committed or
aborted as R334 allows, its pages requested for the next boundary; each request is answered with its status, and a JOB
session's is denied. Cites R210, R317, R332, R333, R334, R335, R397. -/
def Obligations.HostsReadWriteAndLoad : Prop :=
  ∀ (h : Hdr) (x : Session) (s u : State), HostReady h x s → u = delivered h s →
    (∀ (a : Word64) (data : WriteBody) (st : Nat), data.bytes.length ≤ 8176 →
      st = u.dataStatus (deliveredSession h x s) true a.toNat data.len.toNat data.bytes.length →
      ((a.toNat % 32 ≠ 0 ∨ data.len.toNat % 32 ≠ 0 ∨ data.len = 0 ∨ data.bytes.length < data.len.toNat
        ∨ 2 ^ 46 < a.toNat + data.len.toNat) → st = 1)
      ∧ (st = 0 → ∃ t, exec (.dataWrite h a data) s = .next t
        ∧ t.writes = u.writes ++ [⟨u.nextWrite, a.toNat, data.bytes.take data.len.toNat, none, none, some (x.sid, h.seq.toNat)⟩]
        ∧ t = { u with writes := t.writes, nextWrite := u.nextWrite + 1, loads := t.loads })
      ∧ (st ≠ 0 → exec (.dataWrite h a data) s = .next
          (sendSession x.sid (.dataResp a.toNat st h.seq.toNat []) (if st = 4 then noteDenied x.sid u else u))))
    ∧ (∀ (a : Word64) (n : Reg32) (st : Nat), st = u.dataStatus (deliveredSession h x s) false a.toNat n.toNat (x.maxp - 16) →
      (st ≠ 0 → exec (.dataRead h a n) s = .next
          (sendSession x.sid (.dataResp a.toNat st h.seq.toNat []) (if st = 4 then noteDenied x.sid u else u)))
      ∧ (st = 0 → u.readable a.toNat n.toNat = true → ∃ v, exec (.dataRead h a n) s = .next
          (sendSession x.sid (.dataResp a.toNat 0 h.seq.toNat (u.devBytes a.toNat n.toNat)) v) ∧ v = { u with pages := v.pages })
      ∧ (st = 0 → (∃ g ∈ pagesOf a.toNat n.toNat, (u.page g).present = false ∧ (u.page g).loading = false) →
          ∃ t, exec (.dataRead h a n) s = .next t
            ∧ t.waitReads = u.waitReads ++ [⟨.session x.sid, h.seq.toNat, a.toNat, n.toNat⟩] ∧ t.dev = u.dev))
    ∧ (∀ sev flags : Byte, sev.toNat ≤ 3 → flags.toNat < 2 → ∃ t y, exec (.eventSub h sev flags) s = .next t
      ∧ t.session x.sid = some y ∧ y.sub = (if flags.toNat = 1 then some sev.toNat else none)
      ∧ (flags.toNat = 1 → y.evtNext = u.log.next) ∧ t.dev = u.dev ∧ t.regs = u.regs ∧ t.cmds = u.cmds)
    ∧ (x.cls ≠ 2 → (∀ (a : Word64) (n : Reg32) (hint : BitVec 16) (st : Nat),
        st = u.libBeginStatus x.sid a.toNat n.toNat hint.toNat →
        exec (.libBegin h a n hint) s = .next (sendSession x.sid (.libResp st h.seq.toNat)
          (if st = 0 then { u with
              loads := u.loads ++ [⟨x.sid, pageOf a.toNat, n.toNat, hint.toNat, []⟩]
              mapReqs := u.mapReqs ++ [⟨u.tsc.now, .loading (pageOf a.toNat) n.toNat hint.toNat, 0⟩] } else u)))
      ∧ ∀ a : Word64,
        (u.loadAt x.sid a.toNat = none → exec (.libCommit h a) s = .next (sendSession x.sid (.libResp 6 h.seq.toNat) u)
          ∧ exec (.libAbort h a) s = .next (sendSession x.sid (.libResp 6 h.seq.toNat) u))
        ∧ ∀ l, u.loadAt x.sid a.toNat = some l →
          (exec (.libCommit h a) s = .next (if u.loadWhole l = true then
              note 0x050B 0 u.tsc.now (srcIngress h.port) 0 0 l.first (sendSession x.sid (.libResp 0 h.seq.toNat) { u with
                loads := u.loads.filter (fun k => k != l)
                mapReqs := u.mapReqs ++ [⟨u.tsc.now, .library l.first l.count l.hint, 0⟩] })
            else sendSession x.sid (.libResp 5 h.seq.toNat) u))
          ∧ exec (.libAbort h a) s = .next (sendSession x.sid (.libResp 0 h.seq.toNat)
              (note 0x050C 1 u.tsc.now (srcIngress h.port) 0 0 l.first { u with
                loads := u.loads.filter (fun k => k != l)
                mapReqs := u.mapReqs ++ [⟨u.tsc.now, .dropLoad l.first l.count, 0⟩] })))
    ∧ (x.cls = 2 → ∀ (a : Word64) (n : Reg32) (hint : BitVec 16), ∀ c ∈ [Instr.libBegin h a n hint, .libCommit h a, .libAbort h a],
      exec c s = .next (sendSession x.sid (.libResp 7 h.seq.toNat) u))

/-- A LEND_MAP that R337 lets is passed to the lender as LEND_OPEN; the lender accepts by R231 and then marks the pages as
lent, or answers why not. An acceptance requests the borrower's pages, and the host is answered when they become LENT;
a refusal is passed on at once, and where no page of the association is left LEND_CLOSE follows it. A read of a lent
page returns its bytes, and the bytes that arrive stand in the borrower's page. A host that ends a loan has every
association of the borrower receive LEND_NOTICE; at a notice the pages are to end 10 ms on. LEND_CLOSE, or 100 ms
after a notice, ends the lending; a lender that has not answered for 2 ms is lost. Cites R230, R231, R232, R317, R337,
R338, R355. -/
def Obligations.MemoryIsLentAndBorrowed : Prop :=
  (∀ (h : Hdr) (x : Session) (s u : State), HostReady h x s → u = delivered h s →
    (x.cls ≠ 2 → ∀ r : LendReq,
      (u.lendMapStatus r ≠ 0 → exec (.lendMap h r) s = .next (sendSession x.sid (.lendResp (u.lendMapStatus r) h.seq.toNat) u))
      ∧ (u.lendMapStatus r = 0 → ∃ t i, exec (.lendMap h r) s = .next t ∧ u.borrowFor r.lender.toNat = some i
          ∧ (t.borrow i).lender = some r.lender.toNat ∧ (t.borrow i).lost = false ∧ Sent (.borrow i) (.lendOpen r) t ∧ t.dev = u.dev ∧ t.mapReqs = u.mapReqs
          ∧ (t.borrow i).opening = (if u.borrowBusy i then (u.borrow i).opening else [])
              ++ [⟨some (x.sid, h.seq.toNat), r.laddr.toNat, pageOf r.baddr.toNat, r.count.toNat, u.tsc.now⟩]))
    ∧ (x.cls ≠ 2 → ∀ (b : BitVec 16) (is : List Nat),
      is = (upTo u.lents.length).filter (fun i => (u.lent i).borrower == some b.toNat && (u.lent i).open_) →
      (is = [] → exec (.lendEnd h b) s = .next (sendSession x.sid (.lendResp 1 h.seq.toNat) u))
      ∧ (is ≠ [] → ∃ t, exec (.lendEnd h b) s = .next (sendSession x.sid (.lendResp 0 h.seq.toNat) t) ∧ t.dev = u.dev
          ∧ (∀ i ∈ is, (t.lent i).notice = some (((u.lent i).notice).getD u.tsc.now)
              ∧ ((u.lent i).notice = none → Sent (.lent i) .lendNotice t))))
    ∧ (x.cls = 2 → ∀ (r : LendReq) (b : BitVec 16), ∀ c ∈ [Instr.lendMap h r, .lendEnd h b],
      exec c s = .next (sendSession x.sid (.lendResp 6 h.seq.toNat) u)))
  ∧ (∀ (h : MHdr) (i : Nat) (a s u : State), u = moduleDelivered h (.borrow i) a → i < 8 →
    (∀ (st : Byte) (o : LendOpening) (rest : List LendOpening) (sid rseq : Nat), ModuleReady h (.lendAccept st) (.borrow i) a s →
      (u.borrow i).opening = o :: rest → o.host = some (sid, rseq) →
      (st = 0 → ∃ t, exec (.lendAccept h st) s = .next t ∧ (t.borrow i).opening = rest ∧ t.dev = u.dev
        ∧ t.unacked = u.unacked ∧ t.tx = u.tx
        ∧ t.mapReqs = u.mapReqs ++ [⟨u.tsc.now, .lent o.first o.count i o.laddr (sid, rseq), 0⟩])
      ∧ (st ≠ 0 → ((u.borrow i).maps = [] ∨ u.lentHeld i = true ∨ ∃ w ∈ rest, w.host ≠ none) →
        ∃ t, exec (.lendAccept h st) s = .next (sendSession sid (.lendResp st.toNat rseq) t) ∧ (t.borrow i).opening = rest
          ∧ t.dev = u.dev ∧ t.mapReqs = u.mapReqs)
      ∧ (st ≠ 0 → (u.borrow i).maps ≠ [] → u.lentHeld i = false → (∀ w ∈ rest, w.host = none) → u.mapReqs = [] →
        ∃ t, exec (.lendAccept h st) s = .next t ∧ (t.borrow i).opening = [] ∧ (t.borrow i).ended = true
          ∧ Sent (.borrow i) .lendClose t ∧ t.dev = u.dev ∧ t.mapReqs = []))
    ∧ (∀ (tag : Reg32) (data : List Byte) (w : LendWait) (g off : Nat), ModuleReady h (.lendData tag 0 data) (.borrow i) a s →
      ((u.borrow i).waits.find? fun v => v.tag == tag.toNat) = some w → u.fetchingPage i w.laddr = some (g, off) →
      data.length = w.len →
      ∃ t, exec (.lendData h tag 0 data) s = .next t ∧ t.devBytes (g * pageSize + off) w.len = data
        ∧ ∀ b, (b < g * pageSize + off ∨ g * pageSize + off + w.len ≤ b) → readAt 0 t.dev b = readAt 0 u.dev b)
    ∧ (ModuleReady h .lendNotice (.borrow i) a s → (∀ q ∈ u.mapReqs, q.op ≠ .lentEnd i) →
      exec (.lendNotice h) s = .next { u with mapReqs := u.mapReqs ++ [⟨u.tsc.now, .lentEnd i, u.tsc.now + 10000000⟩] }))
  ∧ (∀ (h : MHdr) (i : Nat) (a s u : State), u = moduleDelivered h (.lent i) a → i < a.lents.length →
    (∀ (r : LendReq) (st : Nat), ModuleReady h (.lendOpen r) (.lent i) a s →
      st = u.lendOpenStatus ((u.lent i).borrower.getD 0) r →
      ∃ t, exec (.lendOpen h r) s = .next t ∧ Sent (.lent i) (.lendAccept st) t ∧ t.dev = u.dev
        ∧ (st = 0 → (t.lent i).pages = (u.lent i).pages ++ [(pageOf r.laddr.toNat, r.count.toNat)]
            ∧ ∀ g, pageOf r.laddr.toNat ≤ g → g < pageOf r.laddr.toNat + r.count.toNat → i ∈ (t.page g).lentOut)
        ∧ (st ≠ 0 → t.pages = u.pages))
    ∧ (∀ (addr : Word64) (len tag : Reg32), ModuleReady h (.lendRead addr len tag) (.lent i) a s →
      addr.toNat % 32 = 0 → len.toNat % 32 = 0 → len.toNat ≠ 0 → len.toNat ≤ 8160 →
      pageOf addr.toNat = pageOf (addr.toNat + len.toNat - 1) → (u.page (pageOf addr.toNat)).lentOut.contains i = true →
      u.readable addr.toNat len.toNat = true → u.poisoned addr.toNat len.toNat = false →
      ∃ t, exec (.lendRead h addr len tag) s = .next t ∧ t.dev = u.dev
        ∧ Sent (.lent i) (.lendData tag.toNat 0 (u.devBytes addr.toNat len.toNat)) t)
    ∧ (ModuleReady h .lendClose (.lent i) a s → ∃ t, exec (.lendClose h) s = .next t ∧ LendingOver i u t))
  ∧ (∀ (i : Nat) (n : Nat) (s : State), s.shaped = true → (s.lent i).notice = some n →
    ∃ u, exec (.lendNoticeTimeout i) s = .next u ∧ Ticked (n + 100000000) s u ∧ LendingOver i s u)
  ∧ ∀ (i : Fin 8) (m n : Nat) (s : State), s.shaped = true → (s.borrow i).lender = some m → s.lenderLostAt i = some n →
    (s.borrow i).lost = false →
    ∃ u, exec (.sbgLendLost i) s = .next u ∧ Ticked n s u ∧ u.dev = s.dev ∧ u.pages = s.pages
      ∧ (((s.borrow i).maps = [] ∨ s.lentHeld i = true) → (u.borrow i).lost = true)
      ∧ (∀ o ∈ (u.borrow i).opening, o.sent + 2000000 ≤ n → o.host = none)
      ∧ (∀ k, k ≠ i.val → u.borrow k = s.borrow k)

/-- A port in service answers a request for its own address and an echo request, and counts any other as dropped; an
attestation is answered with the signed report over the nonce, at most 1000 times in a second and by no RETURNED
module. Frames that fail MACsec or are discarded, and messages dropped, are counted and have no other effect. Cites
R305, R308, R310, R316, R339, R389, R391. -/
def Obligations.FramesOutsideSessions : Prop :=
  ∀ (t src : Nat) (p : Fin 8) (s u : State), PortReady p s → u = counted t p s →
    (∀ target : Reg32, exec (.arpRequest t p src target) s = .next (if target ≠ 0 ∧ target.toNat = u.ip4 p then
        emit (some p) (.host src) none false (.arpReply target.toNat) u else rxDrop p u))
    ∧ (∀ target : BitVec 128, exec (.neighbourSolicitation t p src target) s = .next
        (if target.toNat = linkLocal (u.macOf p) ∨ (target ≠ 0 ∧ target.toNat = u.ip6 p) then
          emit (some p) (.host src) none false (.neighbourAdvert target.toNat) u else rxDrop p u))
    ∧ (∀ (v6 : Bool) (data : List Byte), exec (.echoRequest t p src v6 data) s = .next (if v6 = true ∨ u.ip4 p ≠ 0 then
        emit (some p) (.host src) none false (.echoReply data) u else rxDrop p u))
    ∧ (∀ (nonce : List Byte) (recent : List Nat), recent = u.sec.attests.filter (fun a => decide (u.tsc.now < a + 1000000000)) →
        (nonce.length ≠ 48 → exec (.attestReq t p src nonce) s = .next { u with drops := sat32 (u.drops + 1) })
        ∧ (nonce.length = 48 → u.kept.lifecycle = 1 → recent.length < 1000 →
          ∃ w, exec (.attestReq t p src nonce) s = .next w ∧ Replied p src (.attestResp (u.attestReport nonce)) u w
            ∧ w = { u with sec := { u.sec with attests := recent ++ [u.tsc.now] }, tx := w.tx, ports := w.ports })
        ∧ (nonce.length = 48 → (u.kept.lifecycle ≠ 1 ∨ 1000 ≤ recent.length) →
          exec (.attestReq t p src nonce) s = .next { u with sec := { u.sec with attests := recent } }))
    ∧ (∀ m : Bool, ∃ w, exec (.frameDiscard t p m) s = .next w ∧ w = { u with ports := w.ports }
        ∧ (w.port p).secDrop = (if m then sat32 ((u.port p).secDrop + 1) else (u.port p).secDrop)
        ∧ (w.port p).rxDrop = (if m then (u.port p).rxDrop else sat32 ((u.port p).rxDrop + 1)))
    ∧ exec (.messageDrop t p) s = .next { u with drops := sat32 (u.drops + 1) }

/-- A port that may train comes up in the first mode that its working lanes, those not failed, ALLOW and its partner
allow; with an optical module the partner is taken to accept every mode. A link that drops is down, its failed lanes
no longer work, and the fault is recorded. MKA that secures a port with MACsec on makes it SECURED, after a firmware
restart if one runs; losing the association ends that. An overcurrent removes the supply of one cage, and a module
inserted, whatever the module is doing, is held in low power with its identity read. No other port changes. Cites
R303, R304, R308, R342, R345, R426, R427. -/
def Obligations.LinksComeAndGo : Prop :=
  ∀ (t : Nat) (p : Fin 8) (s : State), s.shaped = true →
    (∀ (working partner : BitVec 4) (cfg lanes modes m : Nat), cfg = s.reg (portAddr p 0x104) →
      lanes = working.toNat &&& (15 - (s.port p).failed % 16) →
      modes = (if (s.port p).optical then 15 else partner.toNat) → m = pickMode (bits cfg 27 4) lanes modes →
      ((s.port p).link = false → s.mayTrain p = true → m ≠ 0 →
        ∃ u, exec (.edgLinkUp t p working partner) s = .next u ∧ OnlyPort p s u ∧ u.tsc.now = max s.tsc.now t
          ∧ u.port p = { s.port p with
              link := true, mode := m, working := lanes, partner := modes, lowPower := false, secured := false
              allow := bits cfg 27 4, macsec := bits cfg 20 6 })
      ∧ (((s.port p).link = true ∨ s.mayTrain p = false ∨ m = 0) → exec (.edgLinkUp t p working partner) s = .next s))
    ∧ (∀ failed : BitVec 4, (s.port p).link = true →
      ∃ u, exec (.edgLinkDown t p failed) s = .next u ∧ OnlyPort p s u ∧ u.tsc.now = max s.tsc.now t
        ∧ u.port p = { s.port p with link := false, secured := false, working := (u.port p).working, failed := failed.toNat }
        ∧ (∀ i, i < 4 → bit (u.port p).working i = (bit (s.port p).working i && !failed.getLsbD i))
        ∧ u.spr.lastCode = 0x18 ∧ u.spr.lastSource = srcPort p)
    ∧ (∀ secures : Bool, (s.port p).link = true → s.fwDown = none →
      ∃ u, exec (.mkaFrame t p secures) s = .next u ∧ OnlyPort p s u
        ∧ u.port p = { s.port p with
            rx := (s.port p).rx + 1
            secured := (s.port p).secured || (secures && bits (s.port p).macsec 4 2 != 0
              && bit (s.keySlot (bits (s.port p).macsec 0 3)).use 2 && (s.keySlot (bits (s.port p).macsec 0 3)).key.isSome) })
    ∧ (∀ secures : Bool, (s.port p).link = true → s.fwDown ≠ none →
      exec (.mkaFrame t p secures) s = .next { counted t p s with
        fwMka := if secures then s.fwMka ++ [p.val] else s.fwMka })
    ∧ ((s.port p).secured = true →
      ∃ u, exec (.edgMacsecDown t p) s = .next u ∧ OnlyPort p s u ∧ u.port p = { s.port p with secured := false })
    ∧ ((s.port p).supply = true → (s.pwr.state = .on ∨ s.pwr.state = .idle) →
      ∃ u, exec (.cageOvercurrent t p) s = .next u ∧ OnlyPort p s u
        ∧ u.port p = { s.port p with
            supply := false, link := false, secured := (s.port p).secured && !(s.port p).link
            failed := if (s.port p).link then 0 else (s.port p).failed })
    ∧ (∀ identity : List Byte,
      ∃ u, exec (.cageModuleInsertion t p identity) s = .next u ∧ OnlyPort p s u
        ∧ u.port p = { s.port p with
            identity := identity, lowPower := true, supply := true, failed := 0, link := s.clockless && (s.port p).link
            secured := (s.port p).secured && (s.clockless || !(s.port p).link) })

/-- A correction changes no data. A row with errors at three accesses within 24 hours takes a spare row, a pseudo-channel
with 48 of them used or 16 failing rows a spare one, and a DDR device with errors in 64 bursts the erasure of its
rank; with none left the memory leaves, the bursts in which a second device fails poisoned (named by their units: log
entry 53). Each error corrected is counted once. A unit beyond correction is poisoned, counted, and ends a checkpoint
that lists it; a page that flash has lost is LOST and poisoned whole. A failed adder lane takes a spare or reduces the
port; a bridge's additions move to the ports; a lost phase, the last clock or a hub fault sheds clusters or takes the
module out of service; that clusters so shed become RETIRED is the model's choice (log entry 73). Cites R345, R355,
R356, R357, R358, R359, R360, R361, R363, R370, R371. -/
def Obligations.MemoriesAddersAndClocksFail : Prop :=
  ∀ (t : Nat) (s : State), s.shaped = true →
    (∀ x : Fin 144, s.sec.boot = .ready → s.clockless = false → (s.cl x).state ≠ .retired →
      exec (.sramCorrect t (.cluster x)) s = .next (tick t s) ∧ exec (.sramCorrect t .hub) s = .next (tick t s)
      ∧ ∀ (w : Nat) (at_ : ScrubAt), at_ ∈ [ScrubAt.tileStore x w, .outputStore x w, .vectorRegs x w] →
        (∀ b, exec (.scrubRead t at_ .clean) s = .next (tick t s) ∧ exec (.scrubRead t at_ (.corrected b)) s = .next (tick t s))
        ∧ exec (.scrubRead t at_ .uncorrectable) s = exec (.clusterFault t x 8) s)
    ∧ (∀ (h : Fin 8) (c : PchSeen) (used : Nat), (s.hbm h).inserv = true → used = readAt 0 (s.hbm h).rows c.pch →
      (3 ≤ erringWithin t c.seen → ∃ u, exec (.hbmRowRepair t h c) s = .next u ∧ FaultSeen 0x10 (srcHbm h) t s u
        ∧ DataStands s u ∧ readAt 0 (u.hbm h).rows c.pch = (if used < 64 then used + 1 else used) ∧ (u.hbm h).inserv = true
        ∧ (u.hbm h).ceAt = seenCe t c.seen (s.hbm h).ceAt)
      ∧ (erringWithin t c.seen < 3 → exec (.hbmRowRepair t h c) s = .next s)
      ∧ ((48 ≤ used ∨ 16 ≤ erringWithin t c.seen) →
        ∃ u, exec (.hbmPchSpare t h c) s = .next u ∧ FaultSeen 0x11 (srcHbm h) t s u ∧ DataStands s u
        ∧ (u.hbm h).ceAt = seenCe t c.seen (s.hbm h).ceAt
        ∧ (if (s.hbm h).leaving = true then u.hbm h = { s.hbm h with ceAt := (u.hbm h).ceAt }
           else if (s.hbm h).spared.length < 2 then (u.hbm h).spared = (s.hbm h).spared ++ [c.pch.val]
             ∧ (u.hbm h).leaving = false ∧ readAt 0 (u.hbm h).rows c.pch = 0
           else (u.hbm h).spared = (s.hbm h).spared ∧ (u.hbm h).leaving = true))
      ∧ (used < 48 → erringWithin t c.seen < 16 → exec (.hbmPchSpare t h c) s = .next s))
    ∧ (∀ (d : Fin 16) (r : Fin 2) (k : DeviceSeen) (was : Option Nat), was = (if r = 0 then (s.ddr d).r0 else (s.ddr d).r1) →
      (s.ddr d).inserv = true → was ≠ some k.device.val →
      (was = none → 64 ≤ erringWithin t k.seen →
        ∃ u, exec (.ddrErase t d r k) s = .next u ∧ FaultSeen 0x13 (srcDdr d) t s u ∧ DataStands s u ∧ u.poison = s.poison
        ∧ u.ddr d = (if r = 0 then { s.ddr d with r0 := some k.device.val, ceAt := seenCe t k.seen (s.ddr d).ceAt }
            else { s.ddr d with r1 := some k.device.val, ceAt := seenCe t k.seen (s.ddr d).ceAt }))
      ∧ (was ≠ none → 1 ≤ erringWithin t k.seen → (ckpBusy s.ckp.phase = true → s.nothingHeld) →
        ∃ u, exec (.ddrErase t d r k) s = .next u ∧ FaultSeen 0x13 (srcDdr d) t s u ∧ DataStands s u
        ∧ u.ddr d = { s.ddr d with leaving := true }
        ∧ ∀ e ∈ k.seen, e.2 ≤ t → (s.page (e.1 / 65536)).kind ≠ .unmapped → u.poison.contains e.1 = true)
      ∧ (erringWithin t k.seen < (if was.isSome then 1 else 64) → exec (.ddrErase t d r k) s = .next s))
    ∧ (∀ (unit : Nat) (source : BitVec 12), s.clockless = false → (s.page (unit / 65536)).kind ≠ .unmapped →
      (0x0A8 ≤ source.toNat → source.toNat < 0x0C0 → s.poison.contains unit = false →
        (s.ckpListed unit = true → ckpBusy s.ckp.phase = true → s.nothingHeld) →
        ∃ u, exec (.sprMemUe t unit source) s = .next u ∧ DataStands s u ∧ u.poison = s.poison ++ [unit]
          ∧ FaultSeen (if source.toNat < 0x0B0 then 0x12 else 0x14) source.toNat t s u ∧ u.spr.memUe = sat32 (s.spr.memUe + 1)
          ∧ (if s.ckpListed unit = true ∧ ckpBusy s.ckp.phase = true then u.ckp.phase = .aborted ∧ u.ckp.cause = 3 else u.ckp = s.ckp))
      ∧ (0x0C0 ≤ source.toNat → source.toNat < 0x0D0 → (s.page (unit / 65536)).kind = .library → (s.page (unit / 65536)).lost = false →
        (ckpBusy s.ckp.phase = true → s.nothingHeld) → ∃ u, exec (.sprMemUe t unit source) s = .next u ∧ FaultSeen 0x15 source.toNat t s u ∧ u.dev = s.dev ∧ u.cmds = s.cmds
          ∧ u.page (unit / 65536) = { s.page (unit / 65536) with lost := true }
          ∧ ∀ k, k < 65536 → u.poison.contains (unit / 65536 * 65536 + k) = true)
      ∧ (exec (.scrubRead t (.device unit) .clean) s = .next (tick t s)
        ∧ (∀ b, ∃ u, exec (.scrubRead t (.device unit) (.corrected b)) s = .next u ∧ Ticked t s u ∧ DataStands s u ∧ u.poison = s.poison)
        ∧ (s.poison.contains unit = false → (s.ckpListed unit = true → ckpBusy s.ckp.phase = true → s.nothingHeld) →
          ∃ u, exec (.scrubRead t (.device unit) .uncorrectable) s = .next u ∧ DataStands s u
          ∧ u.poison = s.poison ++ [unit] ∧ Ticked t s u)))
    ∧ (∀ p : Fin 8, s.sec.boot = .ready → (s.port p).lanes ≠ 0 →
      ∃ u, exec (.girthLaneFault t p) s = .next u ∧ FaultSeen 0x16 (srcAdder p) t s u ∧ DataStands s u
        ∧ u.port p = (if 0 < (s.port p).spareLanes then { s.port p with spareLanes := (s.port p).spareLanes - 1 }
            else { s.port p with lanes := (s.port p).lanes - 1 }))
    ∧ (∀ b : Fin 2, s.sec.boot = .ready → s.spr.bridgeMoved.getD b false = false →
      ∃ u, exec (.bridgeAdderFault t b) s = .next u ∧ FaultSeen 0x17 srcFirmware t s u ∧ DataStands s u
        ∧ u.spr.bridgeMoved = setAt s.spr.bridgeMoved b true)
    ∧ (s.clockless = false →
      (∀ (rail : Fin 5) (left : Nat), left = s.spr.phases.getD rail 0 →
        ∃ u, exec (.phaseShed t rail) s = .next u ∧ FaultSeen 0x19 srcPower t s u ∧ DataStands s u
        ∧ u.spr.found = s.spr.found ++ [(0x060C, 1, 16 * (left - 1) + rail.val)]
        ∧ (if 0 < left then u.spr.phases = setAt s.spr.phases rail (left - 1)
              ∧ u.spr.fatal = s.spr.fatal ∧ u.spr.changes = s.spr.changes
           else if rail.val = 4 then u.spr.fatal = true ∧ (s.spr.fatal = false → u.pwr.pgood = if s.sec.boot = .fail then 2 else 3)
           else u.spr.fatal = s.spr.fatal ∧ u.spr.changes = s.spr.changes ++ (s.vacateEight rail).map ClChange.shed))
      ∧ (∃ u, exec (.pllLoss t) s = .next u ∧ FaultSeen 0x1A srcPower t s u ∧ DataStands s u
        ∧ (if s.spr.standbyOk then u.spr.pll = 1 - s.spr.pll ∧ u.spr.standbyOk = false ∧ u.spr.fatal = s.spr.fatal
             ∧ u.spr.found = s.spr.found ++ [(0x060D, 2, 1 - s.spr.pll)]
           else u.spr.fatal = true ∧ (s.spr.fatal = false → u.pwr.pgood = if s.sec.boot = .fail then 2 else 3))))
    ∧ (s.sec.boot = .ready → s.spr.fatal = false →
      ∃ u, exec (.hubLogicFault t) s = .next u ∧ FaultSeen 0x1C srcHub t s u ∧ DataStands s u ∧ u.spr.fatal = true
        ∧ u.pwr.pgood = 3)
    ∧ (s.clockless = false → ∀ w, exec (.scrubRead t (.hubCache w) .clean) s = .next (tick t s))

/-- A serving cluster whose column fails with a spare column left replays its stitch itself; one that fails otherwise is
replayed by the spare of its tree that R350 chooses, with the counters of the copy and the commands begun in the
stitch, and at the boundary becomes RETIRED, or a TAP spare after its first tile-queue fault; with no spare it stops
and its number falls vacant at the boundary. A further fault of a failed cluster is only recorded. Writes of it that
no memory has taken are discarded, and no other cluster changes. A firmware restart, which begins while the image in
the hub cache or the one of the slot booted passes R379, is recorded, loses the time reference, ends 30 µs after the
fault at the latest, is counted at its end, and then holds no register message and no MKA exchange. Cites R345, R347,
R348, R350, R351, R371, R384, R419. -/
def Obligations.ClustersFailAndFirmwareRestarts : Prop :=
  (∀ (t l : Nat) (x : Fin 144) (code : Byte) (s : State) (again : List Begun) (tapped : Bool), s.shaped = true → s.sec.boot = .ready →
    (s.cl x).state = .active → (s.cl x).logical = some l → s.hostSpare = false → 1 ≤ code.toNat → code.toNat ≤ 9 →
    s.failed x = false → again = (s.cl x).begun.filter s.replays → tapped = (code == 9 && !(s.cl x).tap) →
    ∃ u, exec (.clusterFault t x code) s = .next u ∧ FaultSeen code.toNat (srcCluster x) t s u ∧ u.dev = s.dev ∧ u.cmds = s.cmds
      ∧ u.writes = s.writes.filter (fun w => !(w.cluster.any fun o => o.1 == x.val))
      ∧ (code.toNat ≤ 4 → (s.cl x).colUsed < 4 →
          (u.cl x).colUsed = (s.cl x).colUsed + 1 ∧ (u.cl x).logical = some l ∧ (u.cl x).replayQ = again.map (fun b => (b.cmd, b.ctx))
          ∧ (u.cl x).drn = (s.cl x).drnCopy ∧ (u.cl x).lch = (s.cl x).lchCopy ∧ u.sth.replayed = true
          ∧ u.spr.replays = sat32 (s.spr.replays + 1) ∧ ∀ z, z ≠ x.val → u.cl z = s.cl z)
      ∧ (¬(code.toNat ≤ 4 ∧ (s.cl x).colUsed < 4) → ∀ y, s.spareFor x = some y →
          (u.cl y).state = .active ∧ (u.cl y).logical = some l ∧ (u.cl y).replayQ = again.map (fun b => (b.cmd, b.ctx))
          ∧ (u.cl y).drn = (s.cl x).drnCopy ∧ (u.cl y).lch = (s.cl x).lchCopy ∧ (u.cl x).logical = none
          ∧ (u.cl x).state = .active ∧ u.spr.changes = s.spr.changes ++ [.retire x tapped] ∧ u.sth.replayed = true
          ∧ (if tapped then u.kept.taps = s.kept.taps ++ [x.val] else u.kept.retired = s.kept.retired ++ [x.val])
          ∧ u.spr.replays = sat32 (s.spr.replays + 1) ∧ ∀ z, z ≠ x.val → z ≠ y → u.cl z = s.cl z)
      ∧ (¬(code.toNat ≤ 4 ∧ (s.cl x).colUsed < 4) → s.spareFor x = none →
          (u.cl x).stopped = true ∧ (u.cl x).logical = some l ∧ (u.cl x).arrQ = [] ∧ (u.cl x).chainQ = [] ∧ (u.cl x).gate = []
          ∧ u.spr.changes = s.spr.changes ++ [.vacate x, .retire x tapped] ∧ ∀ z, z ≠ x.val → u.cl z = s.cl z))
  ∧ (∀ (t : Nat) (x : Fin 144) (code : Byte) (s : State), s.shaped = true → s.sec.boot = .ready →
    (s.cl x).state ≠ .retired → s.failed x = true → 1 ≤ code.toNat → code.toNat ≤ 9 →
    ∃ u, exec (.clusterFault t x code) s = .next u ∧ FaultSeen code.toNat (srcCluster x) t s u ∧ DataStands s u
      ∧ u.spr.changes = s.spr.changes ∧ u.writes = s.writes)
  ∧ (∀ (t : Nat) (ok : Bool) (s : State), s.sec.boot = .ready → s.fwDown = none →
    (ok = false → s.kept.mayBoot (s.kept.image s.sec.booted) = false → exec (.firmwareWatchdog t ok) s = .next s)
    ∧ ((ok = true ∨ s.kept.mayBoot (s.kept.image s.sec.booted) = true) →
      ∃ u, exec (.firmwareWatchdog t ok) s = .next u ∧ u.fwDown = some t ∧ u.spr.lastCode = 0x1B ∧ u.spr.lastSource = srcFirmware
        ∧ u.spr.lastTime = max s.tsc.now t ∧ u.tsc.now = max s.tsc.now t
        ∧ (if s.tsc.everLocked then u.tsc.locked = false ∧ u.tsc.holdover = true ∧ u.tsc.slew = 0 else Ticked t s u)
        ∧ u = { s with tsc := u.tsc, spr := u.spr, log := u.log, fwDown := u.fwDown }))
  ∧ ∀ (t t0 : Nat) (s : State), s.fwDown = some t0 →
    ∃ u, exec (.fwRestartEnd t) s = .next u ∧ u.tsc.now = max s.tsc.now (min t (t0 + 30000))
      ∧ (s.fwMka = [] → Ticked (min t (t0 + 30000)) s u) ∧ u.fwDown = none ∧ u.fwHeld = [] ∧ u.fwMka = []
      ∧ u.spr.fwRestarts = sat32 (s.spr.fwRestarts + 1) ∧ u.dev = s.dev ∧ u.cmds = s.cmds ∧ u.clusters = s.clusters
      ∧ u.regs = s.regs

/-- A reset keeps what R376 keeps. At its release the ROM measures itself and boots the first valid image, deriving the
keys of the module and closing their secrets; when no slot holds one, boot fails and PGOOD shows the 1 Hz wave.
Firmware boot trains the memories that work, at the rate and capacity that every fitted module allows, loads the key
store or the default one, and is READY with the registers locked. An update ends with its result, and only a commit
that succeeds moves the counter and the revocation bits, never down. A key store record is staged or refused. The
widths of the ROM's measurement, the slot that an update writes, and the refusal of a record that is poisoned, not
WRITABLE or of an ended session are the model's readings (log entries 20, 19 and 21, DEDUCED). Cites R374, R376, R377,
R381, R382, R383, R386, R387, R390, R392, R394, R380. -/
def Obligations.ResetsAndBoot : Prop :=
  (∀ s : State, s.shaped = true →
    (∀ t, s.sec.resetAt = some t → t ≠ 0 → ∃ u, exec .resetBegin s = .next u ∧ KeptThrough s u ∧ u.sec.cause = 3 ∧ u.pwr.inReset = true)
    ∧ ∀ t, (s.pwr.state = .on ∨ s.pwr.state = .idle) →
      ∃ u, exec (.sidebandReset t) s = .next u ∧ KeptThrough s u ∧ u.sec.cause = 2 ∧ u.pwr.inReset = true)
  ∧ (∀ s : State, s.pwr.state = .on → s.pwr.inReset = true → s.shaped = true →
    ∃ u, exec .resetRelease s = .next u ∧ u.pwr.inReset = false ∧ u.tsc.now = 0 ∧ u.dev = s.dev
      ∧ u.sec.m.getD 0 zero48 = sha384 (s.sec.m.getD 0 zero48 ++ s.romDigest)
      ∧ (s.kept.bootSlot = none → u.sec.boot = .fail ∧ u.pwr.pgood = 2 ∧ u.kept = { s.kept with images := u.kept.images }
        ∧ ∀ k, k < 3 → (u.kept.image k).valid = false)
      ∧ ∀ n, s.kept.bootSlot = some n → u.sec.boot = .init ∧ u.sec.booted = n ∧ u.sec.svn = (s.kept.image n).svn
        ∧ u.sec.fallback = decide (n ≠ s.kept.pref) ∧ u.pwr.pgood = s.pwr.pgood
        ∧ u.sec.m.getD 1 zero48 = sha384 (s.sec.m.getD 1 zero48 ++ (s.kept.image n).digest)
        ∧ u.kept = { s.kept with boots := sat32 (s.kept.boots + 1), images := u.kept.images }
        ∧ u.kept.image n = s.kept.image n ∧ (∀ k, k < 3 → (u.kept.image k).valid = true → (s.kept.image k).valid = true)
        ∧ u.sec.closed = true ∧ (s.kept.lifecycle ≠ 1 → u.sec.ak = s.sec.ak ∧ u.sec.kst = s.sec.kst ∧ u.sec.onboard = s.sec.onboard)
        ∧ ∀ ak, s.kept.lifecycle = 1 → ak = keyFromSeed (hmac384 (hmac384 Config.uds
              (ascii "LZ-CDI" ++ u.sec.m.getD 0 zero48 ++ s.sec.m.getD 1 zero48)) (ascii "LZ-AK")) →
            u.sec.ak = some ak ∧ u.sec.kst = some ((hmac384 Config.uds (ascii "LZ-KEYSTORE")).take 32)
            ∧ u.sec.onboard = some ((hmac384 Config.uds (ascii "LZ-ONBOARD")).take 32)
            ∧ u.sec.akCert = signCert s.kept.serial (publicKey ak) (u.sec.m.getD 0 zero48) (u.sec.m.getD 1 zero48))
  ∧ (∀ (t : Nat) (hbmStacks : BitVec 8) (channels : Fitted) (ok : Bool) (s : State), s.sec.boot = .init →
    (ckpBusy s.ckp.phase = true → s.nothingHeld) →
    ∃ u, exec (.firmwareBoot t hbmStacks channels ok) s = .next u ∧ u.sec.boot = .ready ∧ u.sec.lock = true ∧ Ticked t s u
      ∧ (∀ h, h < 8 → (u.hbm h).inserv = hbmStacks.getLsbD h)
      ∧ (∀ d, d < 16 → (u.ddr d).inserv = (channels.fitted.getLsbD d && channels.work.getLsbD d)
        ∧ (u.ddr d).gib = (if (upTo 16).any (fun k => channels.fitted.getLsbD k && channels.small.getLsbD k) then 64 else 128)
        ∧ (∀ k, k < 16 → channels.fitted.getLsbD k = true → (u.ddr d).rate ≤ ddrRate channels.rates.toNat k)
        ∧ ((u.ddr d).rate = 8800
          ∨ ∃ k, k < 16 ∧ channels.fitted.getLsbD k = true ∧ (u.ddr d).rate = ddrRate channels.rates.toNat k))
      ∧ u.dev = s.dev
      ∧ (∀ k, ok = true → s.sec.kst ≠ none → s.kept.store = some k → u.sec.map = k ∧ u.kept.store = some k)
      ∧ ((ok = false ∨ s.sec.kst = none ∨ s.kept.store = none) → u.sec.map = s.defaultStore ∧ u.kept.store = some s.defaultStore))
  ∧ (∀ (t : Nat) (flashOk : Bool) (s : State),
    (s.sec.upd = some .svn → ∃ u, exec (.bootUpdateEnd t flashOk) s = .next u ∧ u.sec.upd = none ∧ Ticked t s u
      ∧ (if s.sec.svn ≤ s.kept.counter ∧ s.newRevoked = 0 then u.sec.updResult = 4 ∧ u.kept = s.kept
         else u.sec.updResult = 1 ∧ s.kept.counter ≤ u.kept.counter
          ∧ u.kept = { s.kept with counter := max s.kept.counter s.sec.svn, revoked := s.kept.revoked + s.newRevoked }))
    ∧ ∀ sid a len, s.sec.upd = some (.image sid (a, len)) →
      ∃ u, exec (.bootUpdateEnd t flashOk) s = .next u ∧ u.sec.upd = none ∧ Ticked t s u ∧ u.dev = s.dev
        ∧ u.kept.counter = s.kept.counter ∧ u.kept.revoked = s.kept.revoked
        ∧ (if len < 384 ∨ s.inWritable a len = false ∨ len ≠ s.devNum (a + 0x10) 4 + 384 then u.sec.updResult = 3 ∧ u.kept = s.kept
           else if s.poisoned a len = true ∨ s.imageAt a len = none then u.sec.updResult = 2 ∧ u.kept = s.kept
           else if flashOk = false then u.sec.updResult = 5
            ∧ u.kept.images = setAt s.kept.images s.updateSlot { s.kept.image s.updateSlot with valid := false }
           else u.sec.updResult = 1 ∧ u.kept.pref = s.updateSlot
            ∧ ∀ i, s.imageAt a len = some i → u.kept.images = setAt s.kept.images s.updateSlot i))
  ∧ ∀ (t sid a : Nat) (s : State) (st : Option KeyStore), s.sec.ksBusy = some (sid, a) →
    st = (if s.inWritable a 0x310 && !s.poisoned a 0x310 then
      stageStore ((s.session sid).map (·.ks)) s.sec.map (s.devBytes a 0x310) else none) →
    ∃ u, exec (.keyStoreStaged t) s = .next u ∧ u.sec.ksBusy = none ∧ Ticked t s u ∧ u.dev = s.dev ∧ u.sec.map = s.sec.map
      ∧ match st with
        | none => u.sec.ksRefused = true ∧ u.kept = s.kept
        | some k => u.sec.ksStaged = true ∧ u.sec.ksRefused = false ∧ u.kept = { s.kept with staged := some k }

/-- A module in OFF leaves it when PWR_EN and the input permit; the rails then rise step by step, and after the last the
module is ON with PGOOD high and reset held. A sense part, PWR_EN, the input out of range, a rail late, a leak or a
trip take it to OFF from any other state, keeping what R430 keeps. A measurement raises the alarms of its warnings and
records what it finds; the trees being ready lets a woken module leave IDLE, and places what waits. Cites R423, R424,
R430, R431, R433, R434, R437, R438, R439. -/
def Obligations.PowerRisesAndFalls : Prop :=
  ∀ (t : Nat) (s : State), s.shaped = true →
    (s.pwr.state ≠ .off →
      (∃ u, exec (.sensePart t) s = .next u ∧ IsOff s.pwr.pwrEn false s u)
      ∧ (∃ u, exec (.pwrEnFall t) s = .next u ∧ IsOff false false s u)
      ∧ (∃ u, exec (.inputOutOfRange t) s = .next u ∧ IsOff s.pwr.pwrEn false s u)
      ∧ (∃ u, exec (.leakDetected t) s = .next u ∧ IsOff s.pwr.pwrEn false s u))
    ∧ (s.pwr.state = .rising →
      (∃ u, exec (.railTimeout t) s = .next u ∧ IsOff s.pwr.pwrEn true s u)
      ∧ exec (.railUp t) s = .next { s with
          pwr := if s.pwr.rail + 1 < 11 then { s.pwr with rail := s.pwr.rail + 1 }
                 else { s.pwr with rail := 11, state := .on, pgood := 1, inReset := true } })
    ∧ (∀ (en restored : Bool) (volt : BitVec 16), s.pwr.state = .off →
      exec (.senseMate t en volt restored) s = .next { s with
        pwr := if en = true ∧ 6000 ≤ volt.toNat ∧ volt.toNat ≤ 9000 ∧ (s.pwr.needCycle = false ∨ restored = true)
               then { s.pwr with state := .rising, rail := 0, pwrEn := true, needCycle := false }
               else { s.pwr with pwrEn := en } })
    ∧ (∀ m : Measure, s.pwr.state ≠ .off →
      ((105 < m.junction.toNat ∨ (52 < m.inlet.toNat ∧ 1000 < m.inletHotMs) ∨ (m.flow.toNat < 200 ∧ 1000 < m.flowLowMs)) →
        ∃ u, exec (.monitorUpdate t m) s = .next u ∧ IsOff s.pwr.pwrEn false s u)
      ∧ (measureTrips m = false → s.clockless = true → exec (.monitorUpdate t m) s = .next s)
      ∧ (measureTrips m = false → s.clockless = false → ∃ u, exec (.monitorUpdate t m) s = .next u
        ∧ u = { s with tsc := u.tsc, pwr := u.pwr, spr := { s.spr with found := [] }, log := u.log } ∧ Ticked t s u
        ∧ (s.spr.found = [] → u.log = s.log)
        ∧ u.pwr.meas = m ∧ u.pwr.energy = s.pwr.energy + m.joules ∧ u.pwr.state = s.pwr.state
        ∧ (∀ i, i < 3 → bit u.pwr.alarm i = (bit s.pwr.alarm i || bit (s.warnings m) i))
        ∧ u.pwr.alert = decide (bits (s.reg 0xE0138) 0 8 < m.junction.toNat ∨ 45 < m.inlet.toNat ∨ m.flow.toNat < 300)))
    ∧ (s.pwr.state = .idle → s.pwr.waking = true → exec (.treesReady t) s = .next
        (if s.pwr.treesReady then s else offerHeld { tick t s with pwr := { s.pwr with treesReady := true } }))
end

