-- ==== Sys2Proof/Laws/Sparse.lean ====
section
/-! SUPPORT. Sparse maps: what is read after a write, and that every memory operation keeps the canonical form. -/

namespace Sys2Proof.Machine

/-! ## Canonical form -/

theorem wfFrom_le {α : Type} [DecidableEq α] {d : α} {m : List (Nat × α)} {lo lo' : Nat} (hle : lo' ≤ lo)
    (h : wfFrom d lo m = true) : wfFrom d lo' m = true := by
  cases m with
  | nil => rfl
  | cons e m =>
    simp only [wfFrom, Bool.and_eq_true, decide_eq_true_eq] at h ⊢
    exact ⟨⟨by omega, h.1.2⟩, h.2⟩

theorem wfFrom_writeAt {α : Type} [DecidableEq α] {d x : α} {m : List (Nat × α)} {lo a : Nat} (h : wfFrom d lo m = true)
    (ha : lo ≤ a) : wfFrom d lo (writeAt d m a x) = true := by
  induction m generalizing lo with
  | nil => by_cases hx : x = d <;> simp [writeAt, hx, wfFrom, ha]
  | cons e m ih =>
    obtain ⟨k, v⟩ := e
    simp only [wfFrom, Bool.and_eq_true, decide_eq_true_eq] at h
    obtain ⟨⟨hk, hv⟩, hm⟩ := h
    unfold writeAt
    split
    · split <;> simp [wfFrom, *] <;> omega
    · split
      · split
        · exact wfFrom_le (by omega) hm
        · subst a; simp [wfFrom, *]
      · simp only [wfFrom, Bool.and_eq_true, decide_eq_true_eq]
        exact ⟨⟨hk, hv⟩, ih hm (by omega)⟩

theorem wfFrom_filter {α : Type} [DecidableEq α] {d : α} {m : List (Nat × α)} {lo : Nat} (p : Nat × α → Bool)
    (h : wfFrom d lo m = true) : wfFrom d lo (m.filter p) = true := by
  induction m generalizing lo with
  | nil => rfl
  | cons e m ih =>
    obtain ⟨k, v⟩ := e
    simp only [wfFrom, Bool.and_eq_true, decide_eq_true_eq] at h
    have := ih h.2
    simp only [List.filter_cons]
    split
    · simp only [wfFrom, Bool.and_eq_true, decide_eq_true_eq]
      exact ⟨h.1, this⟩
    · exact wfFrom_le (by omega) this

theorem Memory.wf_writeAt {m : List (Nat × Byte)} (a : Nat) (b : Byte) (h : Memory.wf m = true) :
    Memory.wf (writeAt 0 m a b) = true := wfFrom_writeAt h (Nat.zero_le _)

theorem Memory.wf_writeBytes {m : List (Nat × Byte)} (a : Nat) (bs : List Byte) (h : Memory.wf m = true) :
    Memory.wf (writeBytes m a bs) = true := by
  induction bs generalizing m a with
  | nil => exact h
  | cons b bs ih => exact ih _ (Memory.wf_writeAt a b h)

theorem Memory.wf_clearRange {m : List (Nat × Byte)} (lo hi : Nat) (h : Memory.wf m = true) :
    Memory.wf (clearRange lo hi m) = true := wfFrom_filter _ h

theorem Memory.wf_keptBytes {m : List (Nat × Byte)} (pages : List (Nat × Page)) (h : Memory.wf m = true) :
    Memory.wf (keptBytes pages m) = true := wfFrom_filter _ h

/-- Memory is in canonical form at reset. -/
theorem Memory.wf_reset : Memory.wf State.reset.dev = true := rfl

/-! ## Reading after a change -/

theorem readAt_below {α : Type} [DecidableEq α] {d : α} {m : List (Nat × α)} {lo a : Nat} (h : wfFrom d lo m = true)
    (ha : a < lo) : readAt d m a = d := by
  induction m generalizing lo with
  | nil => rfl
  | cons e m ih =>
    obtain ⟨k, v⟩ := e
    simp only [wfFrom, Bool.and_eq_true, decide_eq_true_eq] at h
    have hne : (k == a) = false := by simp; omega
    simp only [readAt, hne, Bool.false_eq_true, if_false]
    exact ih h.2 (by omega)

/-- A write of one key leaves every other key as it was. -/
theorem readAt_writeAt_ne {α : Type} [DecidableEq α] (d x : α) (m : List (Nat × α)) {a b : Nat} (h : a ≠ b) :
    readAt d (writeAt d m a x) b = readAt d m b := by
  have hab : (a == b) = false := by simpa using h
  induction m with
  | nil => by_cases hx : x = d <;> simp [writeAt, hx, readAt, hab]
  | cons e m ih =>
    obtain ⟨k, v⟩ := e
    unfold writeAt
    split
    · split <;> simp [readAt, hab]
    · split
      · subst k
        split <;> simp [readAt, hab]
      · simp only [readAt, ih]

/-- A map whose keys rise above `lo`. -/
def keysAbove {α : Type} : (lo : Nat) → List (Nat × α) → Bool
  | _, [] => true
  | lo, (k, _) :: m => decide (lo ≤ k) && keysAbove (k + 1) m

theorem keysAbove_of_wfFrom {α : Type} [DecidableEq α] {d : α} {m : List (Nat × α)} {lo : Nat} (h : wfFrom d lo m = true) :
    keysAbove lo m = true := by
  induction m generalizing lo with
  | nil => rfl
  | cons e m ih =>
    simp only [wfFrom, Bool.and_eq_true] at h
    simp only [keysAbove, Bool.and_eq_true]
    exact ⟨h.1.1, ih h.2⟩

theorem keysAbove_of_keysRise {α : Type} {m : List (Nat × α)} (h : keysRise m = true) :
    keysAbove 0 m = true := by
  have gen : ∀ (m : List (Nat × α)) (e : Nat × α), keysRise (e :: m) = true → keysAbove (e.1 + 1) m = true := by
    intro m
    induction m with
    | nil => intros; rfl
    | cons a m ih =>
      intro e h
      simp only [keysRise, Bool.and_eq_true, decide_eq_true_eq] at h
      simp only [keysAbove, Bool.and_eq_true, decide_eq_true_eq]
      exact ⟨by omega, ih a h.2⟩
  cases m with
  | nil => rfl
  | cons e m => simp [keysAbove, gen m e h]

theorem keysRise_of_keysAbove {α : Type} {m : List (Nat × α)} {lo : Nat} (h : keysAbove lo m = true) : keysRise m = true := by
  induction m generalizing lo with
  | nil => rfl
  | cons e m ih =>
    simp only [keysAbove, Bool.and_eq_true, decide_eq_true_eq] at h
    cases m with
    | nil => rfl
    | cons a m =>
      simp only [keysRise, Bool.and_eq_true, decide_eq_true_eq]
      have h2 := h.2
      simp only [keysAbove, Bool.and_eq_true, decide_eq_true_eq] at h2
      exact ⟨by omega, ih h.2⟩

theorem readAt_absent {α : Type} {d : α} {m : List (Nat × α)} {lo a : Nat} (h : keysAbove lo m = true) (ha : a < lo) :
    readAt d m a = d := by
  induction m generalizing lo with
  | nil => rfl
  | cons e m ih =>
    obtain ⟨k, v⟩ := e
    simp only [keysAbove, Bool.and_eq_true, decide_eq_true_eq] at h
    have hne : (k == a) = false := by simp; omega
    simp only [readAt, hne, Bool.false_eq_true, if_false]
    exact ih h.2 (by omega)

theorem readAt_writeAt_above {α : Type} [DecidableEq α] {d x : α} {m : List (Nat × α)} {lo a : Nat}
    (h : keysAbove lo m = true) : readAt d (writeAt d m a x) a = x := by
  induction m generalizing lo with
  | nil => by_cases hx : x = d <;> simp [writeAt, hx, readAt]
  | cons e m ih =>
    obtain ⟨k, v⟩ := e
    simp only [keysAbove, Bool.and_eq_true, decide_eq_true_eq] at h
    unfold writeAt
    split
    · split
      · rename_i hlt hx
        have hk : keysAbove k ((k, v) :: m) = true := by simp [keysAbove, h.2]
        rw [readAt_absent hk hlt, hx]
      · simp [readAt]
    · split
      · rename_i heq
        split
        · rename_i hx
          rw [readAt_absent h.2 (by omega), hx]
        · simp [readAt]
      · rename_i hne
        have : (k == a) = false := by simp; omega
        simp only [readAt, this, Bool.false_eq_true, if_false]
        exact ih h.2

/-- A read after a write of the same key gives the value written. -/
theorem readAt_writeAt_same {α : Type} [DecidableEq α] (d x : α) {m : List (Nat × α)} (a : Nat) (h : keysRise m = true) :
    readAt d (writeAt d m a x) a = x := readAt_writeAt_above (keysAbove_of_keysRise h)

theorem Memory.keysRise_of_wf {m : List (Nat × Byte)} (h : Memory.wf m = true) : keysRise m = true :=
  keysRise_of_keysAbove (keysAbove_of_wfFrom h)

theorem Memory.readAt_writeAt {m : List (Nat × Byte)} (a b : Nat) (x : Byte) (h : Memory.wf m = true) :
    readAt 0 (writeAt 0 m a x) b = if a = b then x else readAt 0 m b := by
  split
  · subst b; exact readAt_writeAt_same 0 x a (Memory.keysRise_of_wf h)
  · exact readAt_writeAt_ne 0 x m ‹_›

theorem keysAbove_le {α : Type} {m : List (Nat × α)} {lo lo' : Nat} (hle : lo' ≤ lo) (h : keysAbove lo m = true) :
    keysAbove lo' m = true := by
  cases m with
  | nil => rfl
  | cons e m =>
    simp only [keysAbove, Bool.and_eq_true, decide_eq_true_eq] at h ⊢
    exact ⟨by omega, h.2⟩

theorem keysAbove_writeAt {α : Type} [DecidableEq α] {d x : α} {m : List (Nat × α)} {lo a : Nat} (h : keysAbove lo m = true)
    (ha : lo ≤ a) : keysAbove lo (writeAt d m a x) = true := by
  induction m generalizing lo with
  | nil => by_cases hx : x = d <;> simp [writeAt, hx, keysAbove, ha]
  | cons e m ih =>
    obtain ⟨k, v⟩ := e
    simp only [keysAbove, Bool.and_eq_true, decide_eq_true_eq] at h
    obtain ⟨hk, hm⟩ := h
    unfold writeAt
    split
    · split <;> simp [keysAbove, *] <;> omega
    · split
      · split
        · exact keysAbove_le (by omega) hm
        · subst a; simp [keysAbove, *]
      · simp only [keysAbove, Bool.and_eq_true, decide_eq_true_eq]
        exact ⟨hk, ih hm (by omega)⟩

theorem keysAbove_filter {α : Type} {m : List (Nat × α)} {lo : Nat} (p : Nat × α → Bool) (h : keysAbove lo m = true) :
    keysAbove lo (m.filter p) = true := by
  induction m generalizing lo with
  | nil => rfl
  | cons e m ih =>
    obtain ⟨k, v⟩ := e
    simp only [keysAbove, Bool.and_eq_true, decide_eq_true_eq] at h
    have := ih h.2
    simp only [List.filter_cons]
    split
    · simp only [keysAbove, Bool.and_eq_true, decide_eq_true_eq]
      exact ⟨h.1, this⟩
    · exact keysAbove_le (by omega) this

/-- A write of one key keeps the keys rising. -/
theorem keysRise_writeAt {α : Type} [DecidableEq α] (d x : α) {m : List (Nat × α)} (a : Nat) (h : keysRise m = true) :
    keysRise (writeAt d m a x) = true :=
  keysRise_of_keysAbove (keysAbove_writeAt (keysAbove_of_keysRise h) (Nat.zero_le _))

theorem keysRise_filter {α : Type} {m : List (Nat × α)} (p : Nat × α → Bool) (h : keysRise m = true) :
    keysRise (m.filter p) = true :=
  keysRise_of_keysAbove (keysAbove_filter p (keysAbove_of_keysRise h))

/-- Bytes outside the written ones read as before. -/
theorem readAt_writeBytes_outside (m : List (Nat × Byte)) (a b : Nat) (bs : List Byte) (h : b < a ∨ a + bs.length ≤ b) :
    readAt 0 (writeBytes m a bs) b = readAt 0 m b := by
  induction bs generalizing m a with
  | nil => rfl
  | cons x bs ih =>
    simp only [List.length_cons] at h
    rw [writeBytes, ih _ _ (by omega), readAt_writeAt_ne 0 x m (by omega)]

/-- The written bytes read back. -/
theorem readAt_writeBytes_inside {m : List (Nat × Byte)} (hm : Memory.wf m = true) (a i : Nat) (bs : List Byte)
    (h : i < bs.length) : readAt 0 (writeBytes m a bs) (a + i) = bs.getD i 0 := by
  induction bs generalizing m a i with
  | nil => simp at h
  | cons x bs ih =>
    rw [writeBytes]
    cases i with
    | zero =>
      rw [readAt_writeBytes_outside _ _ _ _ (by omega)]
      exact readAt_writeAt_same 0 x a (Memory.keysRise_of_wf hm)
    | succ i =>
      have := ih (Memory.wf_writeAt a x hm) (a + 1) i (by simpa using h)
      rw [show a + (i + 1) = a + 1 + i by omega, this]
      simp

end Sys2Proof.Machine
end

