-- ==== Sys2Proof/Laws/State.lean ====
section
/-! SUPPORT. What each named update of the state does to each field: one lemma a field, true by unfolding. -/

namespace Sys2Proof.Machine

/-! ### `tick` -/

@[simp] theorem tick_pending (n : Nat) (s : State) : (tick n s).pending = s.pending := rfl
@[simp] theorem tick_free (n : Nat) (s : State) : (tick n s).free = s.free := rfl
@[simp] theorem tick_regs (n : Nat) (s : State) : (tick n s).regs = s.regs := rfl
@[simp] theorem tick_latches (n : Nat) (s : State) : (tick n s).latches = s.latches := rfl
@[simp] theorem tick_log (n : Nat) (s : State) : (tick n s).log = s.log := rfl
@[simp] theorem tick_tsc (n : Nat) (s : State) : (tick n s).tsc = { s.tsc with now := max s.tsc.now n } := rfl
@[simp] theorem tick_sth (n : Nat) (s : State) : (tick n s).sth = s.sth := rfl
@[simp] theorem tick_cmds (n : Nat) (s : State) : (tick n s).cmds = s.cmds := rfl
@[simp] theorem tick_clusters (n : Nat) (s : State) : (tick n s).clusters = s.clusters := rfl
@[simp] theorem tick_dev (n : Nat) (s : State) : (tick n s).dev = s.dev := rfl
@[simp] theorem tick_poison (n : Nat) (s : State) : (tick n s).poison = s.poison := rfl
@[simp] theorem tick_writes (n : Nat) (s : State) : (tick n s).writes = s.writes := rfl
@[simp] theorem tick_nextWrite (n : Nat) (s : State) : (tick n s).nextWrite = s.nextWrite := rfl
@[simp] theorem tick_pages (n : Nat) (s : State) : (tick n s).pages = s.pages := rfl
@[simp] theorem tick_waitReads (n : Nat) (s : State) : (tick n s).waitReads = s.waitReads := rfl
@[simp] theorem tick_mapReqs (n : Nat) (s : State) : (tick n s).mapReqs = s.mapReqs := rfl
@[simp] theorem tick_aborts (n : Nat) (s : State) : (tick n s).aborts = s.aborts := rfl
@[simp] theorem tick_pgResult (n : Nat) (s : State) : (tick n s).pgResult = s.pgResult := rfl
@[simp] theorem tick_pgState (n : Nat) (s : State) : (tick n s).pgState = s.pgState := rfl
@[simp] theorem tick_convZeroed (n : Nat) (s : State) : (tick n s).convZeroed = s.convZeroed := rfl
@[simp] theorem tick_convSat (n : Nat) (s : State) : (tick n s).convSat = s.convSat := rfl
@[simp] theorem tick_scheds (n : Nat) (s : State) : (tick n s).scheds = s.scheds := rfl
@[simp] theorem tick_ftl (n : Nat) (s : State) : (tick n s).ftl = s.ftl := rfl
@[simp] theorem tick_loads (n : Nat) (s : State) : (tick n s).loads = s.loads := rfl
@[simp] theorem tick_borrows (n : Nat) (s : State) : (tick n s).borrows = s.borrows := rfl
@[simp] theorem tick_lents (n : Nat) (s : State) : (tick n s).lents = s.lents := rfl
@[simp] theorem tick_slots (n : Nat) (s : State) : (tick n s).slots = s.slots := rfl
@[simp] theorem tick_groups (n : Nat) (s : State) : (tick n s).groups = s.groups := rfl
@[simp] theorem tick_redWaits (n : Nat) (s : State) : (tick n s).redWaits = s.redWaits := rfl
@[simp] theorem tick_voteWaits (n : Nat) (s : State) : (tick n s).voteWaits = s.voteWaits := rfl
@[simp] theorem tick_grtDropped (n : Nat) (s : State) : (tick n s).grtDropped = s.grtDropped := rfl
@[simp] theorem tick_grtFails (n : Nat) (s : State) : (tick n s).grtFails = s.grtFails := rfl
@[simp] theorem tick_sessions (n : Nat) (s : State) : (tick n s).sessions = s.sessions := rfl
@[simp] theorem tick_nextSid (n : Nat) (s : State) : (tick n s).nextSid = s.nextSid := rfl
@[simp] theorem tick_authFails (n : Nat) (s : State) : (tick n s).authFails = s.authFails := rfl
@[simp] theorem tick_drops (n : Nat) (s : State) : (tick n s).drops = s.drops := rfl
@[simp] theorem tick_locks (n : Nat) (s : State) : (tick n s).locks = s.locks := rfl
@[simp] theorem tick_refusals (n : Nat) (s : State) : (tick n s).refusals = s.refusals := rfl
@[simp] theorem tick_expired (n : Nat) (s : State) : (tick n s).expired = s.expired := rfl
@[simp] theorem tick_peers (n : Nat) (s : State) : (tick n s).peers = s.peers := rfl
@[simp] theorem tick_peerReload (n : Nat) (s : State) : (tick n s).peerReload = s.peerReload := rfl
@[simp] theorem tick_peerErr (n : Nat) (s : State) : (tick n s).peerErr = s.peerErr := rfl
@[simp] theorem tick_reds (n : Nat) (s : State) : (tick n s).reds = s.reds := rfl
@[simp] theorem tick_ports (n : Nat) (s : State) : (tick n s).ports = s.ports := rfl
@[simp] theorem tick_planeLost (n : Nat) (s : State) : (tick n s).planeLost = s.planeLost := rfl
@[simp] theorem tick_planeBack (n : Nat) (s : State) : (tick n s).planeBack = s.planeBack := rfl
@[simp] theorem tick_unacked (n : Nat) (s : State) : (tick n s).unacked = s.unacked := rfl
@[simp] theorem tick_queued (n : Nat) (s : State) : (tick n s).queued = s.queued := rfl
@[simp] theorem tick_tx (n : Nat) (s : State) : (tick n s).tx = s.tx := rfl
@[simp] theorem tick_spr (n : Nat) (s : State) : (tick n s).spr = s.spr := rfl
@[simp] theorem tick_ckp (n : Nat) (s : State) : (tick n s).ckp = s.ckp := rfl
@[simp] theorem tick_sec (n : Nat) (s : State) : (tick n s).sec = s.sec := rfl
@[simp] theorem tick_kept (n : Nat) (s : State) : (tick n s).kept = s.kept := rfl
@[simp] theorem tick_pwr (n : Nat) (s : State) : (tick n s).pwr = s.pwr := rfl
@[simp] theorem tick_caps (n : Nat) (s : State) : (tick n s).caps = s.caps := rfl
@[simp] theorem tick_modes (n : Nat) (s : State) : (tick n s).modes = s.modes := rfl
@[simp] theorem tick_fwDown (n : Nat) (s : State) : (tick n s).fwDown = s.fwDown := rfl
@[simp] theorem tick_fwHeld (n : Nat) (s : State) : (tick n s).fwHeld = s.fwHeld := rfl
@[simp] theorem tick_busAt (n : Nat) (s : State) : (tick n s).busAt = s.busAt := rfl
@[simp] theorem tick_fwMka (n : Nat) (s : State) : (tick n s).fwMka = s.fwMka := rfl

/-! ### `onTsc` -/

@[simp] theorem onTsc_pending (f : Tsc → Tsc) (s : State) : (onTsc f s).pending = s.pending := rfl
@[simp] theorem onTsc_free (f : Tsc → Tsc) (s : State) : (onTsc f s).free = s.free := rfl
@[simp] theorem onTsc_regs (f : Tsc → Tsc) (s : State) : (onTsc f s).regs = s.regs := rfl
@[simp] theorem onTsc_latches (f : Tsc → Tsc) (s : State) : (onTsc f s).latches = s.latches := rfl
@[simp] theorem onTsc_log (f : Tsc → Tsc) (s : State) : (onTsc f s).log = s.log := rfl
@[simp] theorem onTsc_tsc (f : Tsc → Tsc) (s : State) : (onTsc f s).tsc = f s.tsc := rfl
@[simp] theorem onTsc_sth (f : Tsc → Tsc) (s : State) : (onTsc f s).sth = s.sth := rfl
@[simp] theorem onTsc_cmds (f : Tsc → Tsc) (s : State) : (onTsc f s).cmds = s.cmds := rfl
@[simp] theorem onTsc_clusters (f : Tsc → Tsc) (s : State) : (onTsc f s).clusters = s.clusters := rfl
@[simp] theorem onTsc_dev (f : Tsc → Tsc) (s : State) : (onTsc f s).dev = s.dev := rfl
@[simp] theorem onTsc_poison (f : Tsc → Tsc) (s : State) : (onTsc f s).poison = s.poison := rfl
@[simp] theorem onTsc_writes (f : Tsc → Tsc) (s : State) : (onTsc f s).writes = s.writes := rfl
@[simp] theorem onTsc_nextWrite (f : Tsc → Tsc) (s : State) : (onTsc f s).nextWrite = s.nextWrite := rfl
@[simp] theorem onTsc_pages (f : Tsc → Tsc) (s : State) : (onTsc f s).pages = s.pages := rfl
@[simp] theorem onTsc_waitReads (f : Tsc → Tsc) (s : State) : (onTsc f s).waitReads = s.waitReads := rfl
@[simp] theorem onTsc_mapReqs (f : Tsc → Tsc) (s : State) : (onTsc f s).mapReqs = s.mapReqs := rfl
@[simp] theorem onTsc_aborts (f : Tsc → Tsc) (s : State) : (onTsc f s).aborts = s.aborts := rfl
@[simp] theorem onTsc_pgResult (f : Tsc → Tsc) (s : State) : (onTsc f s).pgResult = s.pgResult := rfl
@[simp] theorem onTsc_pgState (f : Tsc → Tsc) (s : State) : (onTsc f s).pgState = s.pgState := rfl
@[simp] theorem onTsc_convZeroed (f : Tsc → Tsc) (s : State) : (onTsc f s).convZeroed = s.convZeroed := rfl
@[simp] theorem onTsc_convSat (f : Tsc → Tsc) (s : State) : (onTsc f s).convSat = s.convSat := rfl
@[simp] theorem onTsc_scheds (f : Tsc → Tsc) (s : State) : (onTsc f s).scheds = s.scheds := rfl
@[simp] theorem onTsc_ftl (f : Tsc → Tsc) (s : State) : (onTsc f s).ftl = s.ftl := rfl
@[simp] theorem onTsc_loads (f : Tsc → Tsc) (s : State) : (onTsc f s).loads = s.loads := rfl
@[simp] theorem onTsc_borrows (f : Tsc → Tsc) (s : State) : (onTsc f s).borrows = s.borrows := rfl
@[simp] theorem onTsc_lents (f : Tsc → Tsc) (s : State) : (onTsc f s).lents = s.lents := rfl
@[simp] theorem onTsc_slots (f : Tsc → Tsc) (s : State) : (onTsc f s).slots = s.slots := rfl
@[simp] theorem onTsc_groups (f : Tsc → Tsc) (s : State) : (onTsc f s).groups = s.groups := rfl
@[simp] theorem onTsc_redWaits (f : Tsc → Tsc) (s : State) : (onTsc f s).redWaits = s.redWaits := rfl
@[simp] theorem onTsc_voteWaits (f : Tsc → Tsc) (s : State) : (onTsc f s).voteWaits = s.voteWaits := rfl
@[simp] theorem onTsc_grtDropped (f : Tsc → Tsc) (s : State) : (onTsc f s).grtDropped = s.grtDropped := rfl
@[simp] theorem onTsc_grtFails (f : Tsc → Tsc) (s : State) : (onTsc f s).grtFails = s.grtFails := rfl
@[simp] theorem onTsc_sessions (f : Tsc → Tsc) (s : State) : (onTsc f s).sessions = s.sessions := rfl
@[simp] theorem onTsc_nextSid (f : Tsc → Tsc) (s : State) : (onTsc f s).nextSid = s.nextSid := rfl
@[simp] theorem onTsc_authFails (f : Tsc → Tsc) (s : State) : (onTsc f s).authFails = s.authFails := rfl
@[simp] theorem onTsc_drops (f : Tsc → Tsc) (s : State) : (onTsc f s).drops = s.drops := rfl
@[simp] theorem onTsc_locks (f : Tsc → Tsc) (s : State) : (onTsc f s).locks = s.locks := rfl
@[simp] theorem onTsc_refusals (f : Tsc → Tsc) (s : State) : (onTsc f s).refusals = s.refusals := rfl
@[simp] theorem onTsc_expired (f : Tsc → Tsc) (s : State) : (onTsc f s).expired = s.expired := rfl
@[simp] theorem onTsc_peers (f : Tsc → Tsc) (s : State) : (onTsc f s).peers = s.peers := rfl
@[simp] theorem onTsc_peerReload (f : Tsc → Tsc) (s : State) : (onTsc f s).peerReload = s.peerReload := rfl
@[simp] theorem onTsc_peerErr (f : Tsc → Tsc) (s : State) : (onTsc f s).peerErr = s.peerErr := rfl
@[simp] theorem onTsc_reds (f : Tsc → Tsc) (s : State) : (onTsc f s).reds = s.reds := rfl
@[simp] theorem onTsc_ports (f : Tsc → Tsc) (s : State) : (onTsc f s).ports = s.ports := rfl
@[simp] theorem onTsc_planeLost (f : Tsc → Tsc) (s : State) : (onTsc f s).planeLost = s.planeLost := rfl
@[simp] theorem onTsc_planeBack (f : Tsc → Tsc) (s : State) : (onTsc f s).planeBack = s.planeBack := rfl
@[simp] theorem onTsc_unacked (f : Tsc → Tsc) (s : State) : (onTsc f s).unacked = s.unacked := rfl
@[simp] theorem onTsc_queued (f : Tsc → Tsc) (s : State) : (onTsc f s).queued = s.queued := rfl
@[simp] theorem onTsc_tx (f : Tsc → Tsc) (s : State) : (onTsc f s).tx = s.tx := rfl
@[simp] theorem onTsc_spr (f : Tsc → Tsc) (s : State) : (onTsc f s).spr = s.spr := rfl
@[simp] theorem onTsc_ckp (f : Tsc → Tsc) (s : State) : (onTsc f s).ckp = s.ckp := rfl
@[simp] theorem onTsc_sec (f : Tsc → Tsc) (s : State) : (onTsc f s).sec = s.sec := rfl
@[simp] theorem onTsc_kept (f : Tsc → Tsc) (s : State) : (onTsc f s).kept = s.kept := rfl
@[simp] theorem onTsc_pwr (f : Tsc → Tsc) (s : State) : (onTsc f s).pwr = s.pwr := rfl
@[simp] theorem onTsc_caps (f : Tsc → Tsc) (s : State) : (onTsc f s).caps = s.caps := rfl
@[simp] theorem onTsc_modes (f : Tsc → Tsc) (s : State) : (onTsc f s).modes = s.modes := rfl
@[simp] theorem onTsc_fwDown (f : Tsc → Tsc) (s : State) : (onTsc f s).fwDown = s.fwDown := rfl
@[simp] theorem onTsc_fwHeld (f : Tsc → Tsc) (s : State) : (onTsc f s).fwHeld = s.fwHeld := rfl
@[simp] theorem onTsc_busAt (f : Tsc → Tsc) (s : State) : (onTsc f s).busAt = s.busAt := rfl
@[simp] theorem onTsc_fwMka (f : Tsc → Tsc) (s : State) : (onTsc f s).fwMka = s.fwMka := rfl

/-! ### `onSth` -/

@[simp] theorem onSth_pending (f : Sth → Sth) (s : State) : (onSth f s).pending = s.pending := rfl
@[simp] theorem onSth_free (f : Sth → Sth) (s : State) : (onSth f s).free = s.free := rfl
@[simp] theorem onSth_regs (f : Sth → Sth) (s : State) : (onSth f s).regs = s.regs := rfl
@[simp] theorem onSth_latches (f : Sth → Sth) (s : State) : (onSth f s).latches = s.latches := rfl
@[simp] theorem onSth_log (f : Sth → Sth) (s : State) : (onSth f s).log = s.log := rfl
@[simp] theorem onSth_tsc (f : Sth → Sth) (s : State) : (onSth f s).tsc = s.tsc := rfl
@[simp] theorem onSth_sth (f : Sth → Sth) (s : State) : (onSth f s).sth = f s.sth := rfl
@[simp] theorem onSth_cmds (f : Sth → Sth) (s : State) : (onSth f s).cmds = s.cmds := rfl
@[simp] theorem onSth_clusters (f : Sth → Sth) (s : State) : (onSth f s).clusters = s.clusters := rfl
@[simp] theorem onSth_dev (f : Sth → Sth) (s : State) : (onSth f s).dev = s.dev := rfl
@[simp] theorem onSth_poison (f : Sth → Sth) (s : State) : (onSth f s).poison = s.poison := rfl
@[simp] theorem onSth_writes (f : Sth → Sth) (s : State) : (onSth f s).writes = s.writes := rfl
@[simp] theorem onSth_nextWrite (f : Sth → Sth) (s : State) : (onSth f s).nextWrite = s.nextWrite := rfl
@[simp] theorem onSth_pages (f : Sth → Sth) (s : State) : (onSth f s).pages = s.pages := rfl
@[simp] theorem onSth_waitReads (f : Sth → Sth) (s : State) : (onSth f s).waitReads = s.waitReads := rfl
@[simp] theorem onSth_mapReqs (f : Sth → Sth) (s : State) : (onSth f s).mapReqs = s.mapReqs := rfl
@[simp] theorem onSth_aborts (f : Sth → Sth) (s : State) : (onSth f s).aborts = s.aborts := rfl
@[simp] theorem onSth_pgResult (f : Sth → Sth) (s : State) : (onSth f s).pgResult = s.pgResult := rfl
@[simp] theorem onSth_pgState (f : Sth → Sth) (s : State) : (onSth f s).pgState = s.pgState := rfl
@[simp] theorem onSth_convZeroed (f : Sth → Sth) (s : State) : (onSth f s).convZeroed = s.convZeroed := rfl
@[simp] theorem onSth_convSat (f : Sth → Sth) (s : State) : (onSth f s).convSat = s.convSat := rfl
@[simp] theorem onSth_scheds (f : Sth → Sth) (s : State) : (onSth f s).scheds = s.scheds := rfl
@[simp] theorem onSth_ftl (f : Sth → Sth) (s : State) : (onSth f s).ftl = s.ftl := rfl
@[simp] theorem onSth_loads (f : Sth → Sth) (s : State) : (onSth f s).loads = s.loads := rfl
@[simp] theorem onSth_borrows (f : Sth → Sth) (s : State) : (onSth f s).borrows = s.borrows := rfl
@[simp] theorem onSth_lents (f : Sth → Sth) (s : State) : (onSth f s).lents = s.lents := rfl
@[simp] theorem onSth_slots (f : Sth → Sth) (s : State) : (onSth f s).slots = s.slots := rfl
@[simp] theorem onSth_groups (f : Sth → Sth) (s : State) : (onSth f s).groups = s.groups := rfl
@[simp] theorem onSth_redWaits (f : Sth → Sth) (s : State) : (onSth f s).redWaits = s.redWaits := rfl
@[simp] theorem onSth_voteWaits (f : Sth → Sth) (s : State) : (onSth f s).voteWaits = s.voteWaits := rfl
@[simp] theorem onSth_grtDropped (f : Sth → Sth) (s : State) : (onSth f s).grtDropped = s.grtDropped := rfl
@[simp] theorem onSth_grtFails (f : Sth → Sth) (s : State) : (onSth f s).grtFails = s.grtFails := rfl
@[simp] theorem onSth_sessions (f : Sth → Sth) (s : State) : (onSth f s).sessions = s.sessions := rfl
@[simp] theorem onSth_nextSid (f : Sth → Sth) (s : State) : (onSth f s).nextSid = s.nextSid := rfl
@[simp] theorem onSth_authFails (f : Sth → Sth) (s : State) : (onSth f s).authFails = s.authFails := rfl
@[simp] theorem onSth_drops (f : Sth → Sth) (s : State) : (onSth f s).drops = s.drops := rfl
@[simp] theorem onSth_locks (f : Sth → Sth) (s : State) : (onSth f s).locks = s.locks := rfl
@[simp] theorem onSth_refusals (f : Sth → Sth) (s : State) : (onSth f s).refusals = s.refusals := rfl
@[simp] theorem onSth_expired (f : Sth → Sth) (s : State) : (onSth f s).expired = s.expired := rfl
@[simp] theorem onSth_peers (f : Sth → Sth) (s : State) : (onSth f s).peers = s.peers := rfl
@[simp] theorem onSth_peerReload (f : Sth → Sth) (s : State) : (onSth f s).peerReload = s.peerReload := rfl
@[simp] theorem onSth_peerErr (f : Sth → Sth) (s : State) : (onSth f s).peerErr = s.peerErr := rfl
@[simp] theorem onSth_reds (f : Sth → Sth) (s : State) : (onSth f s).reds = s.reds := rfl
@[simp] theorem onSth_ports (f : Sth → Sth) (s : State) : (onSth f s).ports = s.ports := rfl
@[simp] theorem onSth_planeLost (f : Sth → Sth) (s : State) : (onSth f s).planeLost = s.planeLost := rfl
@[simp] theorem onSth_planeBack (f : Sth → Sth) (s : State) : (onSth f s).planeBack = s.planeBack := rfl
@[simp] theorem onSth_unacked (f : Sth → Sth) (s : State) : (onSth f s).unacked = s.unacked := rfl
@[simp] theorem onSth_queued (f : Sth → Sth) (s : State) : (onSth f s).queued = s.queued := rfl
@[simp] theorem onSth_tx (f : Sth → Sth) (s : State) : (onSth f s).tx = s.tx := rfl
@[simp] theorem onSth_spr (f : Sth → Sth) (s : State) : (onSth f s).spr = s.spr := rfl
@[simp] theorem onSth_ckp (f : Sth → Sth) (s : State) : (onSth f s).ckp = s.ckp := rfl
@[simp] theorem onSth_sec (f : Sth → Sth) (s : State) : (onSth f s).sec = s.sec := rfl
@[simp] theorem onSth_kept (f : Sth → Sth) (s : State) : (onSth f s).kept = s.kept := rfl
@[simp] theorem onSth_pwr (f : Sth → Sth) (s : State) : (onSth f s).pwr = s.pwr := rfl
@[simp] theorem onSth_caps (f : Sth → Sth) (s : State) : (onSth f s).caps = s.caps := rfl
@[simp] theorem onSth_modes (f : Sth → Sth) (s : State) : (onSth f s).modes = s.modes := rfl
@[simp] theorem onSth_fwDown (f : Sth → Sth) (s : State) : (onSth f s).fwDown = s.fwDown := rfl
@[simp] theorem onSth_fwHeld (f : Sth → Sth) (s : State) : (onSth f s).fwHeld = s.fwHeld := rfl
@[simp] theorem onSth_busAt (f : Sth → Sth) (s : State) : (onSth f s).busAt = s.busAt := rfl
@[simp] theorem onSth_fwMka (f : Sth → Sth) (s : State) : (onSth f s).fwMka = s.fwMka := rfl

/-! ### `onSpr` -/

@[simp] theorem onSpr_pending (f : Spr → Spr) (s : State) : (onSpr f s).pending = s.pending := rfl
@[simp] theorem onSpr_free (f : Spr → Spr) (s : State) : (onSpr f s).free = s.free := rfl
@[simp] theorem onSpr_regs (f : Spr → Spr) (s : State) : (onSpr f s).regs = s.regs := rfl
@[simp] theorem onSpr_latches (f : Spr → Spr) (s : State) : (onSpr f s).latches = s.latches := rfl
@[simp] theorem onSpr_log (f : Spr → Spr) (s : State) : (onSpr f s).log = s.log := rfl
@[simp] theorem onSpr_tsc (f : Spr → Spr) (s : State) : (onSpr f s).tsc = s.tsc := rfl
@[simp] theorem onSpr_sth (f : Spr → Spr) (s : State) : (onSpr f s).sth = s.sth := rfl
@[simp] theorem onSpr_cmds (f : Spr → Spr) (s : State) : (onSpr f s).cmds = s.cmds := rfl
@[simp] theorem onSpr_clusters (f : Spr → Spr) (s : State) : (onSpr f s).clusters = s.clusters := rfl
@[simp] theorem onSpr_dev (f : Spr → Spr) (s : State) : (onSpr f s).dev = s.dev := rfl
@[simp] theorem onSpr_poison (f : Spr → Spr) (s : State) : (onSpr f s).poison = s.poison := rfl
@[simp] theorem onSpr_writes (f : Spr → Spr) (s : State) : (onSpr f s).writes = s.writes := rfl
@[simp] theorem onSpr_nextWrite (f : Spr → Spr) (s : State) : (onSpr f s).nextWrite = s.nextWrite := rfl
@[simp] theorem onSpr_pages (f : Spr → Spr) (s : State) : (onSpr f s).pages = s.pages := rfl
@[simp] theorem onSpr_waitReads (f : Spr → Spr) (s : State) : (onSpr f s).waitReads = s.waitReads := rfl
@[simp] theorem onSpr_mapReqs (f : Spr → Spr) (s : State) : (onSpr f s).mapReqs = s.mapReqs := rfl
@[simp] theorem onSpr_aborts (f : Spr → Spr) (s : State) : (onSpr f s).aborts = s.aborts := rfl
@[simp] theorem onSpr_pgResult (f : Spr → Spr) (s : State) : (onSpr f s).pgResult = s.pgResult := rfl
@[simp] theorem onSpr_pgState (f : Spr → Spr) (s : State) : (onSpr f s).pgState = s.pgState := rfl
@[simp] theorem onSpr_convZeroed (f : Spr → Spr) (s : State) : (onSpr f s).convZeroed = s.convZeroed := rfl
@[simp] theorem onSpr_convSat (f : Spr → Spr) (s : State) : (onSpr f s).convSat = s.convSat := rfl
@[simp] theorem onSpr_scheds (f : Spr → Spr) (s : State) : (onSpr f s).scheds = s.scheds := rfl
@[simp] theorem onSpr_ftl (f : Spr → Spr) (s : State) : (onSpr f s).ftl = s.ftl := rfl
@[simp] theorem onSpr_loads (f : Spr → Spr) (s : State) : (onSpr f s).loads = s.loads := rfl
@[simp] theorem onSpr_borrows (f : Spr → Spr) (s : State) : (onSpr f s).borrows = s.borrows := rfl
@[simp] theorem onSpr_lents (f : Spr → Spr) (s : State) : (onSpr f s).lents = s.lents := rfl
@[simp] theorem onSpr_slots (f : Spr → Spr) (s : State) : (onSpr f s).slots = s.slots := rfl
@[simp] theorem onSpr_groups (f : Spr → Spr) (s : State) : (onSpr f s).groups = s.groups := rfl
@[simp] theorem onSpr_redWaits (f : Spr → Spr) (s : State) : (onSpr f s).redWaits = s.redWaits := rfl
@[simp] theorem onSpr_voteWaits (f : Spr → Spr) (s : State) : (onSpr f s).voteWaits = s.voteWaits := rfl
@[simp] theorem onSpr_grtDropped (f : Spr → Spr) (s : State) : (onSpr f s).grtDropped = s.grtDropped := rfl
@[simp] theorem onSpr_grtFails (f : Spr → Spr) (s : State) : (onSpr f s).grtFails = s.grtFails := rfl
@[simp] theorem onSpr_sessions (f : Spr → Spr) (s : State) : (onSpr f s).sessions = s.sessions := rfl
@[simp] theorem onSpr_nextSid (f : Spr → Spr) (s : State) : (onSpr f s).nextSid = s.nextSid := rfl
@[simp] theorem onSpr_authFails (f : Spr → Spr) (s : State) : (onSpr f s).authFails = s.authFails := rfl
@[simp] theorem onSpr_drops (f : Spr → Spr) (s : State) : (onSpr f s).drops = s.drops := rfl
@[simp] theorem onSpr_locks (f : Spr → Spr) (s : State) : (onSpr f s).locks = s.locks := rfl
@[simp] theorem onSpr_refusals (f : Spr → Spr) (s : State) : (onSpr f s).refusals = s.refusals := rfl
@[simp] theorem onSpr_expired (f : Spr → Spr) (s : State) : (onSpr f s).expired = s.expired := rfl
@[simp] theorem onSpr_peers (f : Spr → Spr) (s : State) : (onSpr f s).peers = s.peers := rfl
@[simp] theorem onSpr_peerReload (f : Spr → Spr) (s : State) : (onSpr f s).peerReload = s.peerReload := rfl
@[simp] theorem onSpr_peerErr (f : Spr → Spr) (s : State) : (onSpr f s).peerErr = s.peerErr := rfl
@[simp] theorem onSpr_reds (f : Spr → Spr) (s : State) : (onSpr f s).reds = s.reds := rfl
@[simp] theorem onSpr_ports (f : Spr → Spr) (s : State) : (onSpr f s).ports = s.ports := rfl
@[simp] theorem onSpr_planeLost (f : Spr → Spr) (s : State) : (onSpr f s).planeLost = s.planeLost := rfl
@[simp] theorem onSpr_planeBack (f : Spr → Spr) (s : State) : (onSpr f s).planeBack = s.planeBack := rfl
@[simp] theorem onSpr_unacked (f : Spr → Spr) (s : State) : (onSpr f s).unacked = s.unacked := rfl
@[simp] theorem onSpr_queued (f : Spr → Spr) (s : State) : (onSpr f s).queued = s.queued := rfl
@[simp] theorem onSpr_tx (f : Spr → Spr) (s : State) : (onSpr f s).tx = s.tx := rfl
@[simp] theorem onSpr_spr (f : Spr → Spr) (s : State) : (onSpr f s).spr = f s.spr := rfl
@[simp] theorem onSpr_ckp (f : Spr → Spr) (s : State) : (onSpr f s).ckp = s.ckp := rfl
@[simp] theorem onSpr_sec (f : Spr → Spr) (s : State) : (onSpr f s).sec = s.sec := rfl
@[simp] theorem onSpr_kept (f : Spr → Spr) (s : State) : (onSpr f s).kept = s.kept := rfl
@[simp] theorem onSpr_pwr (f : Spr → Spr) (s : State) : (onSpr f s).pwr = s.pwr := rfl
@[simp] theorem onSpr_caps (f : Spr → Spr) (s : State) : (onSpr f s).caps = s.caps := rfl
@[simp] theorem onSpr_modes (f : Spr → Spr) (s : State) : (onSpr f s).modes = s.modes := rfl
@[simp] theorem onSpr_fwDown (f : Spr → Spr) (s : State) : (onSpr f s).fwDown = s.fwDown := rfl
@[simp] theorem onSpr_fwHeld (f : Spr → Spr) (s : State) : (onSpr f s).fwHeld = s.fwHeld := rfl
@[simp] theorem onSpr_busAt (f : Spr → Spr) (s : State) : (onSpr f s).busAt = s.busAt := rfl
@[simp] theorem onSpr_fwMka (f : Spr → Spr) (s : State) : (onSpr f s).fwMka = s.fwMka := rfl

/-! ### `onSec` -/

@[simp] theorem onSec_pending (f : Sec → Sec) (s : State) : (onSec f s).pending = s.pending := rfl
@[simp] theorem onSec_free (f : Sec → Sec) (s : State) : (onSec f s).free = s.free := rfl
@[simp] theorem onSec_regs (f : Sec → Sec) (s : State) : (onSec f s).regs = s.regs := rfl
@[simp] theorem onSec_latches (f : Sec → Sec) (s : State) : (onSec f s).latches = s.latches := rfl
@[simp] theorem onSec_log (f : Sec → Sec) (s : State) : (onSec f s).log = s.log := rfl
@[simp] theorem onSec_tsc (f : Sec → Sec) (s : State) : (onSec f s).tsc = s.tsc := rfl
@[simp] theorem onSec_sth (f : Sec → Sec) (s : State) : (onSec f s).sth = s.sth := rfl
@[simp] theorem onSec_cmds (f : Sec → Sec) (s : State) : (onSec f s).cmds = s.cmds := rfl
@[simp] theorem onSec_clusters (f : Sec → Sec) (s : State) : (onSec f s).clusters = s.clusters := rfl
@[simp] theorem onSec_dev (f : Sec → Sec) (s : State) : (onSec f s).dev = s.dev := rfl
@[simp] theorem onSec_poison (f : Sec → Sec) (s : State) : (onSec f s).poison = s.poison := rfl
@[simp] theorem onSec_writes (f : Sec → Sec) (s : State) : (onSec f s).writes = s.writes := rfl
@[simp] theorem onSec_nextWrite (f : Sec → Sec) (s : State) : (onSec f s).nextWrite = s.nextWrite := rfl
@[simp] theorem onSec_pages (f : Sec → Sec) (s : State) : (onSec f s).pages = s.pages := rfl
@[simp] theorem onSec_waitReads (f : Sec → Sec) (s : State) : (onSec f s).waitReads = s.waitReads := rfl
@[simp] theorem onSec_mapReqs (f : Sec → Sec) (s : State) : (onSec f s).mapReqs = s.mapReqs := rfl
@[simp] theorem onSec_aborts (f : Sec → Sec) (s : State) : (onSec f s).aborts = s.aborts := rfl
@[simp] theorem onSec_pgResult (f : Sec → Sec) (s : State) : (onSec f s).pgResult = s.pgResult := rfl
@[simp] theorem onSec_pgState (f : Sec → Sec) (s : State) : (onSec f s).pgState = s.pgState := rfl
@[simp] theorem onSec_convZeroed (f : Sec → Sec) (s : State) : (onSec f s).convZeroed = s.convZeroed := rfl
@[simp] theorem onSec_convSat (f : Sec → Sec) (s : State) : (onSec f s).convSat = s.convSat := rfl
@[simp] theorem onSec_scheds (f : Sec → Sec) (s : State) : (onSec f s).scheds = s.scheds := rfl
@[simp] theorem onSec_ftl (f : Sec → Sec) (s : State) : (onSec f s).ftl = s.ftl := rfl
@[simp] theorem onSec_loads (f : Sec → Sec) (s : State) : (onSec f s).loads = s.loads := rfl
@[simp] theorem onSec_borrows (f : Sec → Sec) (s : State) : (onSec f s).borrows = s.borrows := rfl
@[simp] theorem onSec_lents (f : Sec → Sec) (s : State) : (onSec f s).lents = s.lents := rfl
@[simp] theorem onSec_slots (f : Sec → Sec) (s : State) : (onSec f s).slots = s.slots := rfl
@[simp] theorem onSec_groups (f : Sec → Sec) (s : State) : (onSec f s).groups = s.groups := rfl
@[simp] theorem onSec_redWaits (f : Sec → Sec) (s : State) : (onSec f s).redWaits = s.redWaits := rfl
@[simp] theorem onSec_voteWaits (f : Sec → Sec) (s : State) : (onSec f s).voteWaits = s.voteWaits := rfl
@[simp] theorem onSec_grtDropped (f : Sec → Sec) (s : State) : (onSec f s).grtDropped = s.grtDropped := rfl
@[simp] theorem onSec_grtFails (f : Sec → Sec) (s : State) : (onSec f s).grtFails = s.grtFails := rfl
@[simp] theorem onSec_sessions (f : Sec → Sec) (s : State) : (onSec f s).sessions = s.sessions := rfl
@[simp] theorem onSec_nextSid (f : Sec → Sec) (s : State) : (onSec f s).nextSid = s.nextSid := rfl
@[simp] theorem onSec_authFails (f : Sec → Sec) (s : State) : (onSec f s).authFails = s.authFails := rfl
@[simp] theorem onSec_drops (f : Sec → Sec) (s : State) : (onSec f s).drops = s.drops := rfl
@[simp] theorem onSec_locks (f : Sec → Sec) (s : State) : (onSec f s).locks = s.locks := rfl
@[simp] theorem onSec_refusals (f : Sec → Sec) (s : State) : (onSec f s).refusals = s.refusals := rfl
@[simp] theorem onSec_expired (f : Sec → Sec) (s : State) : (onSec f s).expired = s.expired := rfl
@[simp] theorem onSec_peers (f : Sec → Sec) (s : State) : (onSec f s).peers = s.peers := rfl
@[simp] theorem onSec_peerReload (f : Sec → Sec) (s : State) : (onSec f s).peerReload = s.peerReload := rfl
@[simp] theorem onSec_peerErr (f : Sec → Sec) (s : State) : (onSec f s).peerErr = s.peerErr := rfl
@[simp] theorem onSec_reds (f : Sec → Sec) (s : State) : (onSec f s).reds = s.reds := rfl
@[simp] theorem onSec_ports (f : Sec → Sec) (s : State) : (onSec f s).ports = s.ports := rfl
@[simp] theorem onSec_planeLost (f : Sec → Sec) (s : State) : (onSec f s).planeLost = s.planeLost := rfl
@[simp] theorem onSec_planeBack (f : Sec → Sec) (s : State) : (onSec f s).planeBack = s.planeBack := rfl
@[simp] theorem onSec_unacked (f : Sec → Sec) (s : State) : (onSec f s).unacked = s.unacked := rfl
@[simp] theorem onSec_queued (f : Sec → Sec) (s : State) : (onSec f s).queued = s.queued := rfl
@[simp] theorem onSec_tx (f : Sec → Sec) (s : State) : (onSec f s).tx = s.tx := rfl
@[simp] theorem onSec_spr (f : Sec → Sec) (s : State) : (onSec f s).spr = s.spr := rfl
@[simp] theorem onSec_ckp (f : Sec → Sec) (s : State) : (onSec f s).ckp = s.ckp := rfl
@[simp] theorem onSec_sec (f : Sec → Sec) (s : State) : (onSec f s).sec = f s.sec := rfl
@[simp] theorem onSec_kept (f : Sec → Sec) (s : State) : (onSec f s).kept = s.kept := rfl
@[simp] theorem onSec_pwr (f : Sec → Sec) (s : State) : (onSec f s).pwr = s.pwr := rfl
@[simp] theorem onSec_caps (f : Sec → Sec) (s : State) : (onSec f s).caps = s.caps := rfl
@[simp] theorem onSec_modes (f : Sec → Sec) (s : State) : (onSec f s).modes = s.modes := rfl
@[simp] theorem onSec_fwDown (f : Sec → Sec) (s : State) : (onSec f s).fwDown = s.fwDown := rfl
@[simp] theorem onSec_fwHeld (f : Sec → Sec) (s : State) : (onSec f s).fwHeld = s.fwHeld := rfl
@[simp] theorem onSec_busAt (f : Sec → Sec) (s : State) : (onSec f s).busAt = s.busAt := rfl
@[simp] theorem onSec_fwMka (f : Sec → Sec) (s : State) : (onSec f s).fwMka = s.fwMka := rfl

/-! ### `onKept` -/

@[simp] theorem onKept_pending (f : Kept → Kept) (s : State) : (onKept f s).pending = s.pending := rfl
@[simp] theorem onKept_free (f : Kept → Kept) (s : State) : (onKept f s).free = s.free := rfl
@[simp] theorem onKept_regs (f : Kept → Kept) (s : State) : (onKept f s).regs = s.regs := rfl
@[simp] theorem onKept_latches (f : Kept → Kept) (s : State) : (onKept f s).latches = s.latches := rfl
@[simp] theorem onKept_log (f : Kept → Kept) (s : State) : (onKept f s).log = s.log := rfl
@[simp] theorem onKept_tsc (f : Kept → Kept) (s : State) : (onKept f s).tsc = s.tsc := rfl
@[simp] theorem onKept_sth (f : Kept → Kept) (s : State) : (onKept f s).sth = s.sth := rfl
@[simp] theorem onKept_cmds (f : Kept → Kept) (s : State) : (onKept f s).cmds = s.cmds := rfl
@[simp] theorem onKept_clusters (f : Kept → Kept) (s : State) : (onKept f s).clusters = s.clusters := rfl
@[simp] theorem onKept_dev (f : Kept → Kept) (s : State) : (onKept f s).dev = s.dev := rfl
@[simp] theorem onKept_poison (f : Kept → Kept) (s : State) : (onKept f s).poison = s.poison := rfl
@[simp] theorem onKept_writes (f : Kept → Kept) (s : State) : (onKept f s).writes = s.writes := rfl
@[simp] theorem onKept_nextWrite (f : Kept → Kept) (s : State) : (onKept f s).nextWrite = s.nextWrite := rfl
@[simp] theorem onKept_pages (f : Kept → Kept) (s : State) : (onKept f s).pages = s.pages := rfl
@[simp] theorem onKept_waitReads (f : Kept → Kept) (s : State) : (onKept f s).waitReads = s.waitReads := rfl
@[simp] theorem onKept_mapReqs (f : Kept → Kept) (s : State) : (onKept f s).mapReqs = s.mapReqs := rfl
@[simp] theorem onKept_aborts (f : Kept → Kept) (s : State) : (onKept f s).aborts = s.aborts := rfl
@[simp] theorem onKept_pgResult (f : Kept → Kept) (s : State) : (onKept f s).pgResult = s.pgResult := rfl
@[simp] theorem onKept_pgState (f : Kept → Kept) (s : State) : (onKept f s).pgState = s.pgState := rfl
@[simp] theorem onKept_convZeroed (f : Kept → Kept) (s : State) : (onKept f s).convZeroed = s.convZeroed := rfl
@[simp] theorem onKept_convSat (f : Kept → Kept) (s : State) : (onKept f s).convSat = s.convSat := rfl
@[simp] theorem onKept_scheds (f : Kept → Kept) (s : State) : (onKept f s).scheds = s.scheds := rfl
@[simp] theorem onKept_ftl (f : Kept → Kept) (s : State) : (onKept f s).ftl = s.ftl := rfl
@[simp] theorem onKept_loads (f : Kept → Kept) (s : State) : (onKept f s).loads = s.loads := rfl
@[simp] theorem onKept_borrows (f : Kept → Kept) (s : State) : (onKept f s).borrows = s.borrows := rfl
@[simp] theorem onKept_lents (f : Kept → Kept) (s : State) : (onKept f s).lents = s.lents := rfl
@[simp] theorem onKept_slots (f : Kept → Kept) (s : State) : (onKept f s).slots = s.slots := rfl
@[simp] theorem onKept_groups (f : Kept → Kept) (s : State) : (onKept f s).groups = s.groups := rfl
@[simp] theorem onKept_redWaits (f : Kept → Kept) (s : State) : (onKept f s).redWaits = s.redWaits := rfl
@[simp] theorem onKept_voteWaits (f : Kept → Kept) (s : State) : (onKept f s).voteWaits = s.voteWaits := rfl
@[simp] theorem onKept_grtDropped (f : Kept → Kept) (s : State) : (onKept f s).grtDropped = s.grtDropped := rfl
@[simp] theorem onKept_grtFails (f : Kept → Kept) (s : State) : (onKept f s).grtFails = s.grtFails := rfl
@[simp] theorem onKept_sessions (f : Kept → Kept) (s : State) : (onKept f s).sessions = s.sessions := rfl
@[simp] theorem onKept_nextSid (f : Kept → Kept) (s : State) : (onKept f s).nextSid = s.nextSid := rfl
@[simp] theorem onKept_authFails (f : Kept → Kept) (s : State) : (onKept f s).authFails = s.authFails := rfl
@[simp] theorem onKept_drops (f : Kept → Kept) (s : State) : (onKept f s).drops = s.drops := rfl
@[simp] theorem onKept_locks (f : Kept → Kept) (s : State) : (onKept f s).locks = s.locks := rfl
@[simp] theorem onKept_refusals (f : Kept → Kept) (s : State) : (onKept f s).refusals = s.refusals := rfl
@[simp] theorem onKept_expired (f : Kept → Kept) (s : State) : (onKept f s).expired = s.expired := rfl
@[simp] theorem onKept_peers (f : Kept → Kept) (s : State) : (onKept f s).peers = s.peers := rfl
@[simp] theorem onKept_peerReload (f : Kept → Kept) (s : State) : (onKept f s).peerReload = s.peerReload := rfl
@[simp] theorem onKept_peerErr (f : Kept → Kept) (s : State) : (onKept f s).peerErr = s.peerErr := rfl
@[simp] theorem onKept_reds (f : Kept → Kept) (s : State) : (onKept f s).reds = s.reds := rfl
@[simp] theorem onKept_ports (f : Kept → Kept) (s : State) : (onKept f s).ports = s.ports := rfl
@[simp] theorem onKept_planeLost (f : Kept → Kept) (s : State) : (onKept f s).planeLost = s.planeLost := rfl
@[simp] theorem onKept_planeBack (f : Kept → Kept) (s : State) : (onKept f s).planeBack = s.planeBack := rfl
@[simp] theorem onKept_unacked (f : Kept → Kept) (s : State) : (onKept f s).unacked = s.unacked := rfl
@[simp] theorem onKept_queued (f : Kept → Kept) (s : State) : (onKept f s).queued = s.queued := rfl
@[simp] theorem onKept_tx (f : Kept → Kept) (s : State) : (onKept f s).tx = s.tx := rfl
@[simp] theorem onKept_spr (f : Kept → Kept) (s : State) : (onKept f s).spr = s.spr := rfl
@[simp] theorem onKept_ckp (f : Kept → Kept) (s : State) : (onKept f s).ckp = s.ckp := rfl
@[simp] theorem onKept_sec (f : Kept → Kept) (s : State) : (onKept f s).sec = s.sec := rfl
@[simp] theorem onKept_kept (f : Kept → Kept) (s : State) : (onKept f s).kept = f s.kept := rfl
@[simp] theorem onKept_pwr (f : Kept → Kept) (s : State) : (onKept f s).pwr = s.pwr := rfl
@[simp] theorem onKept_caps (f : Kept → Kept) (s : State) : (onKept f s).caps = s.caps := rfl
@[simp] theorem onKept_modes (f : Kept → Kept) (s : State) : (onKept f s).modes = s.modes := rfl
@[simp] theorem onKept_fwDown (f : Kept → Kept) (s : State) : (onKept f s).fwDown = s.fwDown := rfl
@[simp] theorem onKept_fwHeld (f : Kept → Kept) (s : State) : (onKept f s).fwHeld = s.fwHeld := rfl
@[simp] theorem onKept_busAt (f : Kept → Kept) (s : State) : (onKept f s).busAt = s.busAt := rfl
@[simp] theorem onKept_fwMka (f : Kept → Kept) (s : State) : (onKept f s).fwMka = s.fwMka := rfl

/-! ### `onCkp` -/

@[simp] theorem onCkp_pending (f : Ckp → Ckp) (s : State) : (onCkp f s).pending = s.pending := rfl
@[simp] theorem onCkp_free (f : Ckp → Ckp) (s : State) : (onCkp f s).free = s.free := rfl
@[simp] theorem onCkp_regs (f : Ckp → Ckp) (s : State) : (onCkp f s).regs = s.regs := rfl
@[simp] theorem onCkp_latches (f : Ckp → Ckp) (s : State) : (onCkp f s).latches = s.latches := rfl
@[simp] theorem onCkp_log (f : Ckp → Ckp) (s : State) : (onCkp f s).log = s.log := rfl
@[simp] theorem onCkp_tsc (f : Ckp → Ckp) (s : State) : (onCkp f s).tsc = s.tsc := rfl
@[simp] theorem onCkp_sth (f : Ckp → Ckp) (s : State) : (onCkp f s).sth = s.sth := rfl
@[simp] theorem onCkp_cmds (f : Ckp → Ckp) (s : State) : (onCkp f s).cmds = s.cmds := rfl
@[simp] theorem onCkp_clusters (f : Ckp → Ckp) (s : State) : (onCkp f s).clusters = s.clusters := rfl
@[simp] theorem onCkp_dev (f : Ckp → Ckp) (s : State) : (onCkp f s).dev = s.dev := rfl
@[simp] theorem onCkp_poison (f : Ckp → Ckp) (s : State) : (onCkp f s).poison = s.poison := rfl
@[simp] theorem onCkp_writes (f : Ckp → Ckp) (s : State) : (onCkp f s).writes = s.writes := rfl
@[simp] theorem onCkp_nextWrite (f : Ckp → Ckp) (s : State) : (onCkp f s).nextWrite = s.nextWrite := rfl
@[simp] theorem onCkp_pages (f : Ckp → Ckp) (s : State) : (onCkp f s).pages = s.pages := rfl
@[simp] theorem onCkp_waitReads (f : Ckp → Ckp) (s : State) : (onCkp f s).waitReads = s.waitReads := rfl
@[simp] theorem onCkp_mapReqs (f : Ckp → Ckp) (s : State) : (onCkp f s).mapReqs = s.mapReqs := rfl
@[simp] theorem onCkp_aborts (f : Ckp → Ckp) (s : State) : (onCkp f s).aborts = s.aborts := rfl
@[simp] theorem onCkp_pgResult (f : Ckp → Ckp) (s : State) : (onCkp f s).pgResult = s.pgResult := rfl
@[simp] theorem onCkp_pgState (f : Ckp → Ckp) (s : State) : (onCkp f s).pgState = s.pgState := rfl
@[simp] theorem onCkp_convZeroed (f : Ckp → Ckp) (s : State) : (onCkp f s).convZeroed = s.convZeroed := rfl
@[simp] theorem onCkp_convSat (f : Ckp → Ckp) (s : State) : (onCkp f s).convSat = s.convSat := rfl
@[simp] theorem onCkp_scheds (f : Ckp → Ckp) (s : State) : (onCkp f s).scheds = s.scheds := rfl
@[simp] theorem onCkp_ftl (f : Ckp → Ckp) (s : State) : (onCkp f s).ftl = s.ftl := rfl
@[simp] theorem onCkp_loads (f : Ckp → Ckp) (s : State) : (onCkp f s).loads = s.loads := rfl
@[simp] theorem onCkp_borrows (f : Ckp → Ckp) (s : State) : (onCkp f s).borrows = s.borrows := rfl
@[simp] theorem onCkp_lents (f : Ckp → Ckp) (s : State) : (onCkp f s).lents = s.lents := rfl
@[simp] theorem onCkp_slots (f : Ckp → Ckp) (s : State) : (onCkp f s).slots = s.slots := rfl
@[simp] theorem onCkp_groups (f : Ckp → Ckp) (s : State) : (onCkp f s).groups = s.groups := rfl
@[simp] theorem onCkp_redWaits (f : Ckp → Ckp) (s : State) : (onCkp f s).redWaits = s.redWaits := rfl
@[simp] theorem onCkp_voteWaits (f : Ckp → Ckp) (s : State) : (onCkp f s).voteWaits = s.voteWaits := rfl
@[simp] theorem onCkp_grtDropped (f : Ckp → Ckp) (s : State) : (onCkp f s).grtDropped = s.grtDropped := rfl
@[simp] theorem onCkp_grtFails (f : Ckp → Ckp) (s : State) : (onCkp f s).grtFails = s.grtFails := rfl
@[simp] theorem onCkp_sessions (f : Ckp → Ckp) (s : State) : (onCkp f s).sessions = s.sessions := rfl
@[simp] theorem onCkp_nextSid (f : Ckp → Ckp) (s : State) : (onCkp f s).nextSid = s.nextSid := rfl
@[simp] theorem onCkp_authFails (f : Ckp → Ckp) (s : State) : (onCkp f s).authFails = s.authFails := rfl
@[simp] theorem onCkp_drops (f : Ckp → Ckp) (s : State) : (onCkp f s).drops = s.drops := rfl
@[simp] theorem onCkp_locks (f : Ckp → Ckp) (s : State) : (onCkp f s).locks = s.locks := rfl
@[simp] theorem onCkp_refusals (f : Ckp → Ckp) (s : State) : (onCkp f s).refusals = s.refusals := rfl
@[simp] theorem onCkp_expired (f : Ckp → Ckp) (s : State) : (onCkp f s).expired = s.expired := rfl
@[simp] theorem onCkp_peers (f : Ckp → Ckp) (s : State) : (onCkp f s).peers = s.peers := rfl
@[simp] theorem onCkp_peerReload (f : Ckp → Ckp) (s : State) : (onCkp f s).peerReload = s.peerReload := rfl
@[simp] theorem onCkp_peerErr (f : Ckp → Ckp) (s : State) : (onCkp f s).peerErr = s.peerErr := rfl
@[simp] theorem onCkp_reds (f : Ckp → Ckp) (s : State) : (onCkp f s).reds = s.reds := rfl
@[simp] theorem onCkp_ports (f : Ckp → Ckp) (s : State) : (onCkp f s).ports = s.ports := rfl
@[simp] theorem onCkp_planeLost (f : Ckp → Ckp) (s : State) : (onCkp f s).planeLost = s.planeLost := rfl
@[simp] theorem onCkp_planeBack (f : Ckp → Ckp) (s : State) : (onCkp f s).planeBack = s.planeBack := rfl
@[simp] theorem onCkp_unacked (f : Ckp → Ckp) (s : State) : (onCkp f s).unacked = s.unacked := rfl
@[simp] theorem onCkp_queued (f : Ckp → Ckp) (s : State) : (onCkp f s).queued = s.queued := rfl
@[simp] theorem onCkp_tx (f : Ckp → Ckp) (s : State) : (onCkp f s).tx = s.tx := rfl
@[simp] theorem onCkp_spr (f : Ckp → Ckp) (s : State) : (onCkp f s).spr = s.spr := rfl
@[simp] theorem onCkp_ckp (f : Ckp → Ckp) (s : State) : (onCkp f s).ckp = f s.ckp := rfl
@[simp] theorem onCkp_sec (f : Ckp → Ckp) (s : State) : (onCkp f s).sec = s.sec := rfl
@[simp] theorem onCkp_kept (f : Ckp → Ckp) (s : State) : (onCkp f s).kept = s.kept := rfl
@[simp] theorem onCkp_pwr (f : Ckp → Ckp) (s : State) : (onCkp f s).pwr = s.pwr := rfl
@[simp] theorem onCkp_caps (f : Ckp → Ckp) (s : State) : (onCkp f s).caps = s.caps := rfl
@[simp] theorem onCkp_modes (f : Ckp → Ckp) (s : State) : (onCkp f s).modes = s.modes := rfl
@[simp] theorem onCkp_fwDown (f : Ckp → Ckp) (s : State) : (onCkp f s).fwDown = s.fwDown := rfl
@[simp] theorem onCkp_fwHeld (f : Ckp → Ckp) (s : State) : (onCkp f s).fwHeld = s.fwHeld := rfl
@[simp] theorem onCkp_busAt (f : Ckp → Ckp) (s : State) : (onCkp f s).busAt = s.busAt := rfl
@[simp] theorem onCkp_fwMka (f : Ckp → Ckp) (s : State) : (onCkp f s).fwMka = s.fwMka := rfl

/-! ### `onPwr` -/

@[simp] theorem onPwr_pending (f : Pwr → Pwr) (s : State) : (onPwr f s).pending = s.pending := rfl
@[simp] theorem onPwr_free (f : Pwr → Pwr) (s : State) : (onPwr f s).free = s.free := rfl
@[simp] theorem onPwr_regs (f : Pwr → Pwr) (s : State) : (onPwr f s).regs = s.regs := rfl
@[simp] theorem onPwr_latches (f : Pwr → Pwr) (s : State) : (onPwr f s).latches = s.latches := rfl
@[simp] theorem onPwr_log (f : Pwr → Pwr) (s : State) : (onPwr f s).log = s.log := rfl
@[simp] theorem onPwr_tsc (f : Pwr → Pwr) (s : State) : (onPwr f s).tsc = s.tsc := rfl
@[simp] theorem onPwr_sth (f : Pwr → Pwr) (s : State) : (onPwr f s).sth = s.sth := rfl
@[simp] theorem onPwr_cmds (f : Pwr → Pwr) (s : State) : (onPwr f s).cmds = s.cmds := rfl
@[simp] theorem onPwr_clusters (f : Pwr → Pwr) (s : State) : (onPwr f s).clusters = s.clusters := rfl
@[simp] theorem onPwr_dev (f : Pwr → Pwr) (s : State) : (onPwr f s).dev = s.dev := rfl
@[simp] theorem onPwr_poison (f : Pwr → Pwr) (s : State) : (onPwr f s).poison = s.poison := rfl
@[simp] theorem onPwr_writes (f : Pwr → Pwr) (s : State) : (onPwr f s).writes = s.writes := rfl
@[simp] theorem onPwr_nextWrite (f : Pwr → Pwr) (s : State) : (onPwr f s).nextWrite = s.nextWrite := rfl
@[simp] theorem onPwr_pages (f : Pwr → Pwr) (s : State) : (onPwr f s).pages = s.pages := rfl
@[simp] theorem onPwr_waitReads (f : Pwr → Pwr) (s : State) : (onPwr f s).waitReads = s.waitReads := rfl
@[simp] theorem onPwr_mapReqs (f : Pwr → Pwr) (s : State) : (onPwr f s).mapReqs = s.mapReqs := rfl
@[simp] theorem onPwr_aborts (f : Pwr → Pwr) (s : State) : (onPwr f s).aborts = s.aborts := rfl
@[simp] theorem onPwr_pgResult (f : Pwr → Pwr) (s : State) : (onPwr f s).pgResult = s.pgResult := rfl
@[simp] theorem onPwr_pgState (f : Pwr → Pwr) (s : State) : (onPwr f s).pgState = s.pgState := rfl
@[simp] theorem onPwr_convZeroed (f : Pwr → Pwr) (s : State) : (onPwr f s).convZeroed = s.convZeroed := rfl
@[simp] theorem onPwr_convSat (f : Pwr → Pwr) (s : State) : (onPwr f s).convSat = s.convSat := rfl
@[simp] theorem onPwr_scheds (f : Pwr → Pwr) (s : State) : (onPwr f s).scheds = s.scheds := rfl
@[simp] theorem onPwr_ftl (f : Pwr → Pwr) (s : State) : (onPwr f s).ftl = s.ftl := rfl
@[simp] theorem onPwr_loads (f : Pwr → Pwr) (s : State) : (onPwr f s).loads = s.loads := rfl
@[simp] theorem onPwr_borrows (f : Pwr → Pwr) (s : State) : (onPwr f s).borrows = s.borrows := rfl
@[simp] theorem onPwr_lents (f : Pwr → Pwr) (s : State) : (onPwr f s).lents = s.lents := rfl
@[simp] theorem onPwr_slots (f : Pwr → Pwr) (s : State) : (onPwr f s).slots = s.slots := rfl
@[simp] theorem onPwr_groups (f : Pwr → Pwr) (s : State) : (onPwr f s).groups = s.groups := rfl
@[simp] theorem onPwr_redWaits (f : Pwr → Pwr) (s : State) : (onPwr f s).redWaits = s.redWaits := rfl
@[simp] theorem onPwr_voteWaits (f : Pwr → Pwr) (s : State) : (onPwr f s).voteWaits = s.voteWaits := rfl
@[simp] theorem onPwr_grtDropped (f : Pwr → Pwr) (s : State) : (onPwr f s).grtDropped = s.grtDropped := rfl
@[simp] theorem onPwr_grtFails (f : Pwr → Pwr) (s : State) : (onPwr f s).grtFails = s.grtFails := rfl
@[simp] theorem onPwr_sessions (f : Pwr → Pwr) (s : State) : (onPwr f s).sessions = s.sessions := rfl
@[simp] theorem onPwr_nextSid (f : Pwr → Pwr) (s : State) : (onPwr f s).nextSid = s.nextSid := rfl
@[simp] theorem onPwr_authFails (f : Pwr → Pwr) (s : State) : (onPwr f s).authFails = s.authFails := rfl
@[simp] theorem onPwr_drops (f : Pwr → Pwr) (s : State) : (onPwr f s).drops = s.drops := rfl
@[simp] theorem onPwr_locks (f : Pwr → Pwr) (s : State) : (onPwr f s).locks = s.locks := rfl
@[simp] theorem onPwr_refusals (f : Pwr → Pwr) (s : State) : (onPwr f s).refusals = s.refusals := rfl
@[simp] theorem onPwr_expired (f : Pwr → Pwr) (s : State) : (onPwr f s).expired = s.expired := rfl
@[simp] theorem onPwr_peers (f : Pwr → Pwr) (s : State) : (onPwr f s).peers = s.peers := rfl
@[simp] theorem onPwr_peerReload (f : Pwr → Pwr) (s : State) : (onPwr f s).peerReload = s.peerReload := rfl
@[simp] theorem onPwr_peerErr (f : Pwr → Pwr) (s : State) : (onPwr f s).peerErr = s.peerErr := rfl
@[simp] theorem onPwr_reds (f : Pwr → Pwr) (s : State) : (onPwr f s).reds = s.reds := rfl
@[simp] theorem onPwr_ports (f : Pwr → Pwr) (s : State) : (onPwr f s).ports = s.ports := rfl
@[simp] theorem onPwr_planeLost (f : Pwr → Pwr) (s : State) : (onPwr f s).planeLost = s.planeLost := rfl
@[simp] theorem onPwr_planeBack (f : Pwr → Pwr) (s : State) : (onPwr f s).planeBack = s.planeBack := rfl
@[simp] theorem onPwr_unacked (f : Pwr → Pwr) (s : State) : (onPwr f s).unacked = s.unacked := rfl
@[simp] theorem onPwr_queued (f : Pwr → Pwr) (s : State) : (onPwr f s).queued = s.queued := rfl
@[simp] theorem onPwr_tx (f : Pwr → Pwr) (s : State) : (onPwr f s).tx = s.tx := rfl
@[simp] theorem onPwr_spr (f : Pwr → Pwr) (s : State) : (onPwr f s).spr = s.spr := rfl
@[simp] theorem onPwr_ckp (f : Pwr → Pwr) (s : State) : (onPwr f s).ckp = s.ckp := rfl
@[simp] theorem onPwr_sec (f : Pwr → Pwr) (s : State) : (onPwr f s).sec = s.sec := rfl
@[simp] theorem onPwr_kept (f : Pwr → Pwr) (s : State) : (onPwr f s).kept = s.kept := rfl
@[simp] theorem onPwr_pwr (f : Pwr → Pwr) (s : State) : (onPwr f s).pwr = f s.pwr := rfl
@[simp] theorem onPwr_caps (f : Pwr → Pwr) (s : State) : (onPwr f s).caps = s.caps := rfl
@[simp] theorem onPwr_modes (f : Pwr → Pwr) (s : State) : (onPwr f s).modes = s.modes := rfl
@[simp] theorem onPwr_fwDown (f : Pwr → Pwr) (s : State) : (onPwr f s).fwDown = s.fwDown := rfl
@[simp] theorem onPwr_fwHeld (f : Pwr → Pwr) (s : State) : (onPwr f s).fwHeld = s.fwHeld := rfl
@[simp] theorem onPwr_busAt (f : Pwr → Pwr) (s : State) : (onPwr f s).busAt = s.busAt := rfl
@[simp] theorem onPwr_fwMka (f : Pwr → Pwr) (s : State) : (onPwr f s).fwMka = s.fwMka := rfl

/-! ### `onLog` -/

@[simp] theorem onLog_pending (f : EvtLog → EvtLog) (s : State) : (onLog f s).pending = s.pending := rfl
@[simp] theorem onLog_free (f : EvtLog → EvtLog) (s : State) : (onLog f s).free = s.free := rfl
@[simp] theorem onLog_regs (f : EvtLog → EvtLog) (s : State) : (onLog f s).regs = s.regs := rfl
@[simp] theorem onLog_latches (f : EvtLog → EvtLog) (s : State) : (onLog f s).latches = s.latches := rfl
@[simp] theorem onLog_log (f : EvtLog → EvtLog) (s : State) : (onLog f s).log = f s.log := rfl
@[simp] theorem onLog_tsc (f : EvtLog → EvtLog) (s : State) : (onLog f s).tsc = s.tsc := rfl
@[simp] theorem onLog_sth (f : EvtLog → EvtLog) (s : State) : (onLog f s).sth = s.sth := rfl
@[simp] theorem onLog_cmds (f : EvtLog → EvtLog) (s : State) : (onLog f s).cmds = s.cmds := rfl
@[simp] theorem onLog_clusters (f : EvtLog → EvtLog) (s : State) : (onLog f s).clusters = s.clusters := rfl
@[simp] theorem onLog_dev (f : EvtLog → EvtLog) (s : State) : (onLog f s).dev = s.dev := rfl
@[simp] theorem onLog_poison (f : EvtLog → EvtLog) (s : State) : (onLog f s).poison = s.poison := rfl
@[simp] theorem onLog_writes (f : EvtLog → EvtLog) (s : State) : (onLog f s).writes = s.writes := rfl
@[simp] theorem onLog_nextWrite (f : EvtLog → EvtLog) (s : State) : (onLog f s).nextWrite = s.nextWrite := rfl
@[simp] theorem onLog_pages (f : EvtLog → EvtLog) (s : State) : (onLog f s).pages = s.pages := rfl
@[simp] theorem onLog_waitReads (f : EvtLog → EvtLog) (s : State) : (onLog f s).waitReads = s.waitReads := rfl
@[simp] theorem onLog_mapReqs (f : EvtLog → EvtLog) (s : State) : (onLog f s).mapReqs = s.mapReqs := rfl
@[simp] theorem onLog_aborts (f : EvtLog → EvtLog) (s : State) : (onLog f s).aborts = s.aborts := rfl
@[simp] theorem onLog_pgResult (f : EvtLog → EvtLog) (s : State) : (onLog f s).pgResult = s.pgResult := rfl
@[simp] theorem onLog_pgState (f : EvtLog → EvtLog) (s : State) : (onLog f s).pgState = s.pgState := rfl
@[simp] theorem onLog_convZeroed (f : EvtLog → EvtLog) (s : State) : (onLog f s).convZeroed = s.convZeroed := rfl
@[simp] theorem onLog_convSat (f : EvtLog → EvtLog) (s : State) : (onLog f s).convSat = s.convSat := rfl
@[simp] theorem onLog_scheds (f : EvtLog → EvtLog) (s : State) : (onLog f s).scheds = s.scheds := rfl
@[simp] theorem onLog_ftl (f : EvtLog → EvtLog) (s : State) : (onLog f s).ftl = s.ftl := rfl
@[simp] theorem onLog_loads (f : EvtLog → EvtLog) (s : State) : (onLog f s).loads = s.loads := rfl
@[simp] theorem onLog_borrows (f : EvtLog → EvtLog) (s : State) : (onLog f s).borrows = s.borrows := rfl
@[simp] theorem onLog_lents (f : EvtLog → EvtLog) (s : State) : (onLog f s).lents = s.lents := rfl
@[simp] theorem onLog_slots (f : EvtLog → EvtLog) (s : State) : (onLog f s).slots = s.slots := rfl
@[simp] theorem onLog_groups (f : EvtLog → EvtLog) (s : State) : (onLog f s).groups = s.groups := rfl
@[simp] theorem onLog_redWaits (f : EvtLog → EvtLog) (s : State) : (onLog f s).redWaits = s.redWaits := rfl
@[simp] theorem onLog_voteWaits (f : EvtLog → EvtLog) (s : State) : (onLog f s).voteWaits = s.voteWaits := rfl
@[simp] theorem onLog_grtDropped (f : EvtLog → EvtLog) (s : State) : (onLog f s).grtDropped = s.grtDropped := rfl
@[simp] theorem onLog_grtFails (f : EvtLog → EvtLog) (s : State) : (onLog f s).grtFails = s.grtFails := rfl
@[simp] theorem onLog_sessions (f : EvtLog → EvtLog) (s : State) : (onLog f s).sessions = s.sessions := rfl
@[simp] theorem onLog_nextSid (f : EvtLog → EvtLog) (s : State) : (onLog f s).nextSid = s.nextSid := rfl
@[simp] theorem onLog_authFails (f : EvtLog → EvtLog) (s : State) : (onLog f s).authFails = s.authFails := rfl
@[simp] theorem onLog_drops (f : EvtLog → EvtLog) (s : State) : (onLog f s).drops = s.drops := rfl
@[simp] theorem onLog_locks (f : EvtLog → EvtLog) (s : State) : (onLog f s).locks = s.locks := rfl
@[simp] theorem onLog_refusals (f : EvtLog → EvtLog) (s : State) : (onLog f s).refusals = s.refusals := rfl
@[simp] theorem onLog_expired (f : EvtLog → EvtLog) (s : State) : (onLog f s).expired = s.expired := rfl
@[simp] theorem onLog_peers (f : EvtLog → EvtLog) (s : State) : (onLog f s).peers = s.peers := rfl
@[simp] theorem onLog_peerReload (f : EvtLog → EvtLog) (s : State) : (onLog f s).peerReload = s.peerReload := rfl
@[simp] theorem onLog_peerErr (f : EvtLog → EvtLog) (s : State) : (onLog f s).peerErr = s.peerErr := rfl
@[simp] theorem onLog_reds (f : EvtLog → EvtLog) (s : State) : (onLog f s).reds = s.reds := rfl
@[simp] theorem onLog_ports (f : EvtLog → EvtLog) (s : State) : (onLog f s).ports = s.ports := rfl
@[simp] theorem onLog_planeLost (f : EvtLog → EvtLog) (s : State) : (onLog f s).planeLost = s.planeLost := rfl
@[simp] theorem onLog_planeBack (f : EvtLog → EvtLog) (s : State) : (onLog f s).planeBack = s.planeBack := rfl
@[simp] theorem onLog_unacked (f : EvtLog → EvtLog) (s : State) : (onLog f s).unacked = s.unacked := rfl
@[simp] theorem onLog_queued (f : EvtLog → EvtLog) (s : State) : (onLog f s).queued = s.queued := rfl
@[simp] theorem onLog_tx (f : EvtLog → EvtLog) (s : State) : (onLog f s).tx = s.tx := rfl
@[simp] theorem onLog_spr (f : EvtLog → EvtLog) (s : State) : (onLog f s).spr = s.spr := rfl
@[simp] theorem onLog_ckp (f : EvtLog → EvtLog) (s : State) : (onLog f s).ckp = s.ckp := rfl
@[simp] theorem onLog_sec (f : EvtLog → EvtLog) (s : State) : (onLog f s).sec = s.sec := rfl
@[simp] theorem onLog_kept (f : EvtLog → EvtLog) (s : State) : (onLog f s).kept = s.kept := rfl
@[simp] theorem onLog_pwr (f : EvtLog → EvtLog) (s : State) : (onLog f s).pwr = s.pwr := rfl
@[simp] theorem onLog_caps (f : EvtLog → EvtLog) (s : State) : (onLog f s).caps = s.caps := rfl
@[simp] theorem onLog_modes (f : EvtLog → EvtLog) (s : State) : (onLog f s).modes = s.modes := rfl
@[simp] theorem onLog_fwDown (f : EvtLog → EvtLog) (s : State) : (onLog f s).fwDown = s.fwDown := rfl
@[simp] theorem onLog_fwHeld (f : EvtLog → EvtLog) (s : State) : (onLog f s).fwHeld = s.fwHeld := rfl
@[simp] theorem onLog_busAt (f : EvtLog → EvtLog) (s : State) : (onLog f s).busAt = s.busAt := rfl
@[simp] theorem onLog_fwMka (f : EvtLog → EvtLog) (s : State) : (onLog f s).fwMka = s.fwMka := rfl

/-! ### `onCl` -/

@[simp] theorem onCl_pending (x : Nat) (f : Cluster → Cluster) (s : State) : (onCl x f s).pending = s.pending := rfl
@[simp] theorem onCl_free (x : Nat) (f : Cluster → Cluster) (s : State) : (onCl x f s).free = s.free := rfl
@[simp] theorem onCl_regs (x : Nat) (f : Cluster → Cluster) (s : State) : (onCl x f s).regs = s.regs := rfl
@[simp] theorem onCl_latches (x : Nat) (f : Cluster → Cluster) (s : State) : (onCl x f s).latches = s.latches := rfl
@[simp] theorem onCl_log (x : Nat) (f : Cluster → Cluster) (s : State) : (onCl x f s).log = s.log := rfl
@[simp] theorem onCl_tsc (x : Nat) (f : Cluster → Cluster) (s : State) : (onCl x f s).tsc = s.tsc := rfl
@[simp] theorem onCl_sth (x : Nat) (f : Cluster → Cluster) (s : State) : (onCl x f s).sth = s.sth := rfl
@[simp] theorem onCl_cmds (x : Nat) (f : Cluster → Cluster) (s : State) : (onCl x f s).cmds = s.cmds := rfl
@[simp] theorem onCl_clusters (x : Nat) (f : Cluster → Cluster) (s : State) :
    (onCl x f s).clusters = setAt s.clusters x (f (s.cl x)) := rfl
@[simp] theorem onCl_dev (x : Nat) (f : Cluster → Cluster) (s : State) : (onCl x f s).dev = s.dev := rfl
@[simp] theorem onCl_poison (x : Nat) (f : Cluster → Cluster) (s : State) : (onCl x f s).poison = s.poison := rfl
@[simp] theorem onCl_writes (x : Nat) (f : Cluster → Cluster) (s : State) : (onCl x f s).writes = s.writes := rfl
@[simp] theorem onCl_nextWrite (x : Nat) (f : Cluster → Cluster) (s : State) : (onCl x f s).nextWrite = s.nextWrite := rfl
@[simp] theorem onCl_pages (x : Nat) (f : Cluster → Cluster) (s : State) : (onCl x f s).pages = s.pages := rfl
@[simp] theorem onCl_waitReads (x : Nat) (f : Cluster → Cluster) (s : State) : (onCl x f s).waitReads = s.waitReads := rfl
@[simp] theorem onCl_mapReqs (x : Nat) (f : Cluster → Cluster) (s : State) : (onCl x f s).mapReqs = s.mapReqs := rfl
@[simp] theorem onCl_aborts (x : Nat) (f : Cluster → Cluster) (s : State) : (onCl x f s).aborts = s.aborts := rfl
@[simp] theorem onCl_pgResult (x : Nat) (f : Cluster → Cluster) (s : State) : (onCl x f s).pgResult = s.pgResult := rfl
@[simp] theorem onCl_pgState (x : Nat) (f : Cluster → Cluster) (s : State) : (onCl x f s).pgState = s.pgState := rfl
@[simp] theorem onCl_convZeroed (x : Nat) (f : Cluster → Cluster) (s : State) : (onCl x f s).convZeroed = s.convZeroed := rfl
@[simp] theorem onCl_convSat (x : Nat) (f : Cluster → Cluster) (s : State) : (onCl x f s).convSat = s.convSat := rfl
@[simp] theorem onCl_scheds (x : Nat) (f : Cluster → Cluster) (s : State) : (onCl x f s).scheds = s.scheds := rfl
@[simp] theorem onCl_ftl (x : Nat) (f : Cluster → Cluster) (s : State) : (onCl x f s).ftl = s.ftl := rfl
@[simp] theorem onCl_loads (x : Nat) (f : Cluster → Cluster) (s : State) : (onCl x f s).loads = s.loads := rfl
@[simp] theorem onCl_borrows (x : Nat) (f : Cluster → Cluster) (s : State) : (onCl x f s).borrows = s.borrows := rfl
@[simp] theorem onCl_lents (x : Nat) (f : Cluster → Cluster) (s : State) : (onCl x f s).lents = s.lents := rfl
@[simp] theorem onCl_slots (x : Nat) (f : Cluster → Cluster) (s : State) : (onCl x f s).slots = s.slots := rfl
@[simp] theorem onCl_groups (x : Nat) (f : Cluster → Cluster) (s : State) : (onCl x f s).groups = s.groups := rfl
@[simp] theorem onCl_redWaits (x : Nat) (f : Cluster → Cluster) (s : State) : (onCl x f s).redWaits = s.redWaits := rfl
@[simp] theorem onCl_voteWaits (x : Nat) (f : Cluster → Cluster) (s : State) : (onCl x f s).voteWaits = s.voteWaits := rfl
@[simp] theorem onCl_grtDropped (x : Nat) (f : Cluster → Cluster) (s : State) : (onCl x f s).grtDropped = s.grtDropped := rfl
@[simp] theorem onCl_grtFails (x : Nat) (f : Cluster → Cluster) (s : State) : (onCl x f s).grtFails = s.grtFails := rfl
@[simp] theorem onCl_sessions (x : Nat) (f : Cluster → Cluster) (s : State) : (onCl x f s).sessions = s.sessions := rfl
@[simp] theorem onCl_nextSid (x : Nat) (f : Cluster → Cluster) (s : State) : (onCl x f s).nextSid = s.nextSid := rfl
@[simp] theorem onCl_authFails (x : Nat) (f : Cluster → Cluster) (s : State) : (onCl x f s).authFails = s.authFails := rfl
@[simp] theorem onCl_drops (x : Nat) (f : Cluster → Cluster) (s : State) : (onCl x f s).drops = s.drops := rfl
@[simp] theorem onCl_locks (x : Nat) (f : Cluster → Cluster) (s : State) : (onCl x f s).locks = s.locks := rfl
@[simp] theorem onCl_refusals (x : Nat) (f : Cluster → Cluster) (s : State) : (onCl x f s).refusals = s.refusals := rfl
@[simp] theorem onCl_expired (x : Nat) (f : Cluster → Cluster) (s : State) : (onCl x f s).expired = s.expired := rfl
@[simp] theorem onCl_peers (x : Nat) (f : Cluster → Cluster) (s : State) : (onCl x f s).peers = s.peers := rfl
@[simp] theorem onCl_peerReload (x : Nat) (f : Cluster → Cluster) (s : State) : (onCl x f s).peerReload = s.peerReload := rfl
@[simp] theorem onCl_peerErr (x : Nat) (f : Cluster → Cluster) (s : State) : (onCl x f s).peerErr = s.peerErr := rfl
@[simp] theorem onCl_reds (x : Nat) (f : Cluster → Cluster) (s : State) : (onCl x f s).reds = s.reds := rfl
@[simp] theorem onCl_ports (x : Nat) (f : Cluster → Cluster) (s : State) : (onCl x f s).ports = s.ports := rfl
@[simp] theorem onCl_planeLost (x : Nat) (f : Cluster → Cluster) (s : State) : (onCl x f s).planeLost = s.planeLost := rfl
@[simp] theorem onCl_planeBack (x : Nat) (f : Cluster → Cluster) (s : State) : (onCl x f s).planeBack = s.planeBack := rfl
@[simp] theorem onCl_unacked (x : Nat) (f : Cluster → Cluster) (s : State) : (onCl x f s).unacked = s.unacked := rfl
@[simp] theorem onCl_queued (x : Nat) (f : Cluster → Cluster) (s : State) : (onCl x f s).queued = s.queued := rfl
@[simp] theorem onCl_tx (x : Nat) (f : Cluster → Cluster) (s : State) : (onCl x f s).tx = s.tx := rfl
@[simp] theorem onCl_spr (x : Nat) (f : Cluster → Cluster) (s : State) : (onCl x f s).spr = s.spr := rfl
@[simp] theorem onCl_ckp (x : Nat) (f : Cluster → Cluster) (s : State) : (onCl x f s).ckp = s.ckp := rfl
@[simp] theorem onCl_sec (x : Nat) (f : Cluster → Cluster) (s : State) : (onCl x f s).sec = s.sec := rfl
@[simp] theorem onCl_kept (x : Nat) (f : Cluster → Cluster) (s : State) : (onCl x f s).kept = s.kept := rfl
@[simp] theorem onCl_pwr (x : Nat) (f : Cluster → Cluster) (s : State) : (onCl x f s).pwr = s.pwr := rfl
@[simp] theorem onCl_caps (x : Nat) (f : Cluster → Cluster) (s : State) : (onCl x f s).caps = s.caps := rfl
@[simp] theorem onCl_modes (x : Nat) (f : Cluster → Cluster) (s : State) : (onCl x f s).modes = s.modes := rfl
@[simp] theorem onCl_fwDown (x : Nat) (f : Cluster → Cluster) (s : State) : (onCl x f s).fwDown = s.fwDown := rfl
@[simp] theorem onCl_fwHeld (x : Nat) (f : Cluster → Cluster) (s : State) : (onCl x f s).fwHeld = s.fwHeld := rfl
@[simp] theorem onCl_busAt (x : Nat) (f : Cluster → Cluster) (s : State) : (onCl x f s).busAt = s.busAt := rfl
@[simp] theorem onCl_fwMka (x : Nat) (f : Cluster → Cluster) (s : State) : (onCl x f s).fwMka = s.fwMka := rfl

/-! ### `onSlot` -/

@[simp] theorem onSlot_pending (n : Nat) (f : TSlot → TSlot) (s : State) : (onSlot n f s).pending = s.pending := rfl
@[simp] theorem onSlot_free (n : Nat) (f : TSlot → TSlot) (s : State) : (onSlot n f s).free = s.free := rfl
@[simp] theorem onSlot_regs (n : Nat) (f : TSlot → TSlot) (s : State) : (onSlot n f s).regs = s.regs := rfl
@[simp] theorem onSlot_latches (n : Nat) (f : TSlot → TSlot) (s : State) : (onSlot n f s).latches = s.latches := rfl
@[simp] theorem onSlot_log (n : Nat) (f : TSlot → TSlot) (s : State) : (onSlot n f s).log = s.log := rfl
@[simp] theorem onSlot_tsc (n : Nat) (f : TSlot → TSlot) (s : State) : (onSlot n f s).tsc = s.tsc := rfl
@[simp] theorem onSlot_sth (n : Nat) (f : TSlot → TSlot) (s : State) : (onSlot n f s).sth = s.sth := rfl
@[simp] theorem onSlot_cmds (n : Nat) (f : TSlot → TSlot) (s : State) : (onSlot n f s).cmds = s.cmds := rfl
@[simp] theorem onSlot_clusters (n : Nat) (f : TSlot → TSlot) (s : State) : (onSlot n f s).clusters = s.clusters := rfl
@[simp] theorem onSlot_dev (n : Nat) (f : TSlot → TSlot) (s : State) : (onSlot n f s).dev = s.dev := rfl
@[simp] theorem onSlot_poison (n : Nat) (f : TSlot → TSlot) (s : State) : (onSlot n f s).poison = s.poison := rfl
@[simp] theorem onSlot_writes (n : Nat) (f : TSlot → TSlot) (s : State) : (onSlot n f s).writes = s.writes := rfl
@[simp] theorem onSlot_nextWrite (n : Nat) (f : TSlot → TSlot) (s : State) : (onSlot n f s).nextWrite = s.nextWrite := rfl
@[simp] theorem onSlot_pages (n : Nat) (f : TSlot → TSlot) (s : State) : (onSlot n f s).pages = s.pages := rfl
@[simp] theorem onSlot_waitReads (n : Nat) (f : TSlot → TSlot) (s : State) : (onSlot n f s).waitReads = s.waitReads := rfl
@[simp] theorem onSlot_mapReqs (n : Nat) (f : TSlot → TSlot) (s : State) : (onSlot n f s).mapReqs = s.mapReqs := rfl
@[simp] theorem onSlot_aborts (n : Nat) (f : TSlot → TSlot) (s : State) : (onSlot n f s).aborts = s.aborts := rfl
@[simp] theorem onSlot_pgResult (n : Nat) (f : TSlot → TSlot) (s : State) : (onSlot n f s).pgResult = s.pgResult := rfl
@[simp] theorem onSlot_pgState (n : Nat) (f : TSlot → TSlot) (s : State) : (onSlot n f s).pgState = s.pgState := rfl
@[simp] theorem onSlot_convZeroed (n : Nat) (f : TSlot → TSlot) (s : State) : (onSlot n f s).convZeroed = s.convZeroed := rfl
@[simp] theorem onSlot_convSat (n : Nat) (f : TSlot → TSlot) (s : State) : (onSlot n f s).convSat = s.convSat := rfl
@[simp] theorem onSlot_scheds (n : Nat) (f : TSlot → TSlot) (s : State) : (onSlot n f s).scheds = s.scheds := rfl
@[simp] theorem onSlot_ftl (n : Nat) (f : TSlot → TSlot) (s : State) : (onSlot n f s).ftl = s.ftl := rfl
@[simp] theorem onSlot_loads (n : Nat) (f : TSlot → TSlot) (s : State) : (onSlot n f s).loads = s.loads := rfl
@[simp] theorem onSlot_borrows (n : Nat) (f : TSlot → TSlot) (s : State) : (onSlot n f s).borrows = s.borrows := rfl
@[simp] theorem onSlot_lents (n : Nat) (f : TSlot → TSlot) (s : State) : (onSlot n f s).lents = s.lents := rfl
@[simp] theorem onSlot_slots (n : Nat) (f : TSlot → TSlot) (s : State) :
    (onSlot n f s).slots = setAt s.slots n (f (s.slot n)) := rfl
@[simp] theorem onSlot_groups (n : Nat) (f : TSlot → TSlot) (s : State) : (onSlot n f s).groups = s.groups := rfl
@[simp] theorem onSlot_redWaits (n : Nat) (f : TSlot → TSlot) (s : State) : (onSlot n f s).redWaits = s.redWaits := rfl
@[simp] theorem onSlot_voteWaits (n : Nat) (f : TSlot → TSlot) (s : State) : (onSlot n f s).voteWaits = s.voteWaits := rfl
@[simp] theorem onSlot_grtDropped (n : Nat) (f : TSlot → TSlot) (s : State) : (onSlot n f s).grtDropped = s.grtDropped := rfl
@[simp] theorem onSlot_grtFails (n : Nat) (f : TSlot → TSlot) (s : State) : (onSlot n f s).grtFails = s.grtFails := rfl
@[simp] theorem onSlot_sessions (n : Nat) (f : TSlot → TSlot) (s : State) : (onSlot n f s).sessions = s.sessions := rfl
@[simp] theorem onSlot_nextSid (n : Nat) (f : TSlot → TSlot) (s : State) : (onSlot n f s).nextSid = s.nextSid := rfl
@[simp] theorem onSlot_authFails (n : Nat) (f : TSlot → TSlot) (s : State) : (onSlot n f s).authFails = s.authFails := rfl
@[simp] theorem onSlot_drops (n : Nat) (f : TSlot → TSlot) (s : State) : (onSlot n f s).drops = s.drops := rfl
@[simp] theorem onSlot_locks (n : Nat) (f : TSlot → TSlot) (s : State) : (onSlot n f s).locks = s.locks := rfl
@[simp] theorem onSlot_refusals (n : Nat) (f : TSlot → TSlot) (s : State) : (onSlot n f s).refusals = s.refusals := rfl
@[simp] theorem onSlot_expired (n : Nat) (f : TSlot → TSlot) (s : State) : (onSlot n f s).expired = s.expired := rfl
@[simp] theorem onSlot_peers (n : Nat) (f : TSlot → TSlot) (s : State) : (onSlot n f s).peers = s.peers := rfl
@[simp] theorem onSlot_peerReload (n : Nat) (f : TSlot → TSlot) (s : State) : (onSlot n f s).peerReload = s.peerReload := rfl
@[simp] theorem onSlot_peerErr (n : Nat) (f : TSlot → TSlot) (s : State) : (onSlot n f s).peerErr = s.peerErr := rfl
@[simp] theorem onSlot_reds (n : Nat) (f : TSlot → TSlot) (s : State) : (onSlot n f s).reds = s.reds := rfl
@[simp] theorem onSlot_ports (n : Nat) (f : TSlot → TSlot) (s : State) : (onSlot n f s).ports = s.ports := rfl
@[simp] theorem onSlot_planeLost (n : Nat) (f : TSlot → TSlot) (s : State) : (onSlot n f s).planeLost = s.planeLost := rfl
@[simp] theorem onSlot_planeBack (n : Nat) (f : TSlot → TSlot) (s : State) : (onSlot n f s).planeBack = s.planeBack := rfl
@[simp] theorem onSlot_unacked (n : Nat) (f : TSlot → TSlot) (s : State) : (onSlot n f s).unacked = s.unacked := rfl
@[simp] theorem onSlot_queued (n : Nat) (f : TSlot → TSlot) (s : State) : (onSlot n f s).queued = s.queued := rfl
@[simp] theorem onSlot_tx (n : Nat) (f : TSlot → TSlot) (s : State) : (onSlot n f s).tx = s.tx := rfl
@[simp] theorem onSlot_spr (n : Nat) (f : TSlot → TSlot) (s : State) : (onSlot n f s).spr = s.spr := rfl
@[simp] theorem onSlot_ckp (n : Nat) (f : TSlot → TSlot) (s : State) : (onSlot n f s).ckp = s.ckp := rfl
@[simp] theorem onSlot_sec (n : Nat) (f : TSlot → TSlot) (s : State) : (onSlot n f s).sec = s.sec := rfl
@[simp] theorem onSlot_kept (n : Nat) (f : TSlot → TSlot) (s : State) : (onSlot n f s).kept = s.kept := rfl
@[simp] theorem onSlot_pwr (n : Nat) (f : TSlot → TSlot) (s : State) : (onSlot n f s).pwr = s.pwr := rfl
@[simp] theorem onSlot_caps (n : Nat) (f : TSlot → TSlot) (s : State) : (onSlot n f s).caps = s.caps := rfl
@[simp] theorem onSlot_modes (n : Nat) (f : TSlot → TSlot) (s : State) : (onSlot n f s).modes = s.modes := rfl
@[simp] theorem onSlot_fwDown (n : Nat) (f : TSlot → TSlot) (s : State) : (onSlot n f s).fwDown = s.fwDown := rfl
@[simp] theorem onSlot_fwHeld (n : Nat) (f : TSlot → TSlot) (s : State) : (onSlot n f s).fwHeld = s.fwHeld := rfl
@[simp] theorem onSlot_busAt (n : Nat) (f : TSlot → TSlot) (s : State) : (onSlot n f s).busAt = s.busAt := rfl
@[simp] theorem onSlot_fwMka (n : Nat) (f : TSlot → TSlot) (s : State) : (onSlot n f s).fwMka = s.fwMka := rfl

/-! ### `onGroup` -/

@[simp] theorem onGroup_pending (n : Nat) (f : Group → Group) (s : State) : (onGroup n f s).pending = s.pending := rfl
@[simp] theorem onGroup_free (n : Nat) (f : Group → Group) (s : State) : (onGroup n f s).free = s.free := rfl
@[simp] theorem onGroup_regs (n : Nat) (f : Group → Group) (s : State) : (onGroup n f s).regs = s.regs := rfl
@[simp] theorem onGroup_latches (n : Nat) (f : Group → Group) (s : State) : (onGroup n f s).latches = s.latches := rfl
@[simp] theorem onGroup_log (n : Nat) (f : Group → Group) (s : State) : (onGroup n f s).log = s.log := rfl
@[simp] theorem onGroup_tsc (n : Nat) (f : Group → Group) (s : State) : (onGroup n f s).tsc = s.tsc := rfl
@[simp] theorem onGroup_sth (n : Nat) (f : Group → Group) (s : State) : (onGroup n f s).sth = s.sth := rfl
@[simp] theorem onGroup_cmds (n : Nat) (f : Group → Group) (s : State) : (onGroup n f s).cmds = s.cmds := rfl
@[simp] theorem onGroup_clusters (n : Nat) (f : Group → Group) (s : State) : (onGroup n f s).clusters = s.clusters := rfl
@[simp] theorem onGroup_dev (n : Nat) (f : Group → Group) (s : State) : (onGroup n f s).dev = s.dev := rfl
@[simp] theorem onGroup_poison (n : Nat) (f : Group → Group) (s : State) : (onGroup n f s).poison = s.poison := rfl
@[simp] theorem onGroup_writes (n : Nat) (f : Group → Group) (s : State) : (onGroup n f s).writes = s.writes := rfl
@[simp] theorem onGroup_nextWrite (n : Nat) (f : Group → Group) (s : State) : (onGroup n f s).nextWrite = s.nextWrite := rfl
@[simp] theorem onGroup_pages (n : Nat) (f : Group → Group) (s : State) : (onGroup n f s).pages = s.pages := rfl
@[simp] theorem onGroup_waitReads (n : Nat) (f : Group → Group) (s : State) : (onGroup n f s).waitReads = s.waitReads := rfl
@[simp] theorem onGroup_mapReqs (n : Nat) (f : Group → Group) (s : State) : (onGroup n f s).mapReqs = s.mapReqs := rfl
@[simp] theorem onGroup_aborts (n : Nat) (f : Group → Group) (s : State) : (onGroup n f s).aborts = s.aborts := rfl
@[simp] theorem onGroup_pgResult (n : Nat) (f : Group → Group) (s : State) : (onGroup n f s).pgResult = s.pgResult := rfl
@[simp] theorem onGroup_pgState (n : Nat) (f : Group → Group) (s : State) : (onGroup n f s).pgState = s.pgState := rfl
@[simp] theorem onGroup_convZeroed (n : Nat) (f : Group → Group) (s : State) :
    (onGroup n f s).convZeroed = s.convZeroed := rfl
@[simp] theorem onGroup_convSat (n : Nat) (f : Group → Group) (s : State) : (onGroup n f s).convSat = s.convSat := rfl
@[simp] theorem onGroup_scheds (n : Nat) (f : Group → Group) (s : State) : (onGroup n f s).scheds = s.scheds := rfl
@[simp] theorem onGroup_ftl (n : Nat) (f : Group → Group) (s : State) : (onGroup n f s).ftl = s.ftl := rfl
@[simp] theorem onGroup_loads (n : Nat) (f : Group → Group) (s : State) : (onGroup n f s).loads = s.loads := rfl
@[simp] theorem onGroup_borrows (n : Nat) (f : Group → Group) (s : State) : (onGroup n f s).borrows = s.borrows := rfl
@[simp] theorem onGroup_lents (n : Nat) (f : Group → Group) (s : State) : (onGroup n f s).lents = s.lents := rfl
@[simp] theorem onGroup_slots (n : Nat) (f : Group → Group) (s : State) : (onGroup n f s).slots = s.slots := rfl
@[simp] theorem onGroup_groups (n : Nat) (f : Group → Group) (s : State) :
    (onGroup n f s).groups = setAt s.groups n (f (s.group n)) := rfl
@[simp] theorem onGroup_grtDropped (n : Nat) (f : Group → Group) (s : State) :
    (onGroup n f s).grtDropped = s.grtDropped := rfl
@[simp] theorem onGroup_grtFails (n : Nat) (f : Group → Group) (s : State) : (onGroup n f s).grtFails = s.grtFails := rfl
@[simp] theorem onGroup_sessions (n : Nat) (f : Group → Group) (s : State) : (onGroup n f s).sessions = s.sessions := rfl
@[simp] theorem onGroup_nextSid (n : Nat) (f : Group → Group) (s : State) : (onGroup n f s).nextSid = s.nextSid := rfl
@[simp] theorem onGroup_authFails (n : Nat) (f : Group → Group) (s : State) : (onGroup n f s).authFails = s.authFails := rfl
@[simp] theorem onGroup_drops (n : Nat) (f : Group → Group) (s : State) : (onGroup n f s).drops = s.drops := rfl
@[simp] theorem onGroup_locks (n : Nat) (f : Group → Group) (s : State) : (onGroup n f s).locks = s.locks := rfl
@[simp] theorem onGroup_refusals (n : Nat) (f : Group → Group) (s : State) : (onGroup n f s).refusals = s.refusals := rfl
@[simp] theorem onGroup_expired (n : Nat) (f : Group → Group) (s : State) : (onGroup n f s).expired = s.expired := rfl
@[simp] theorem onGroup_peers (n : Nat) (f : Group → Group) (s : State) : (onGroup n f s).peers = s.peers := rfl
@[simp] theorem onGroup_peerReload (n : Nat) (f : Group → Group) (s : State) :
    (onGroup n f s).peerReload = s.peerReload := rfl
@[simp] theorem onGroup_peerErr (n : Nat) (f : Group → Group) (s : State) : (onGroup n f s).peerErr = s.peerErr := rfl
@[simp] theorem onGroup_reds (n : Nat) (f : Group → Group) (s : State) : (onGroup n f s).reds = s.reds := rfl
@[simp] theorem onGroup_ports (n : Nat) (f : Group → Group) (s : State) : (onGroup n f s).ports = s.ports := rfl
@[simp] theorem onGroup_planeLost (n : Nat) (f : Group → Group) (s : State) : (onGroup n f s).planeLost = s.planeLost := rfl
@[simp] theorem onGroup_planeBack (n : Nat) (f : Group → Group) (s : State) : (onGroup n f s).planeBack = s.planeBack := rfl
@[simp] theorem onGroup_unacked (n : Nat) (f : Group → Group) (s : State) : (onGroup n f s).unacked = s.unacked := rfl
@[simp] theorem onGroup_queued (n : Nat) (f : Group → Group) (s : State) : (onGroup n f s).queued = s.queued := rfl
@[simp] theorem onGroup_tx (n : Nat) (f : Group → Group) (s : State) : (onGroup n f s).tx = s.tx := rfl
@[simp] theorem onGroup_spr (n : Nat) (f : Group → Group) (s : State) : (onGroup n f s).spr = s.spr := rfl
@[simp] theorem onGroup_ckp (n : Nat) (f : Group → Group) (s : State) : (onGroup n f s).ckp = s.ckp := rfl
@[simp] theorem onGroup_sec (n : Nat) (f : Group → Group) (s : State) : (onGroup n f s).sec = s.sec := rfl
@[simp] theorem onGroup_kept (n : Nat) (f : Group → Group) (s : State) : (onGroup n f s).kept = s.kept := rfl
@[simp] theorem onGroup_pwr (n : Nat) (f : Group → Group) (s : State) : (onGroup n f s).pwr = s.pwr := rfl
@[simp] theorem onGroup_caps (n : Nat) (f : Group → Group) (s : State) : (onGroup n f s).caps = s.caps := rfl
@[simp] theorem onGroup_modes (n : Nat) (f : Group → Group) (s : State) : (onGroup n f s).modes = s.modes := rfl
@[simp] theorem onGroup_fwDown (n : Nat) (f : Group → Group) (s : State) : (onGroup n f s).fwDown = s.fwDown := rfl
@[simp] theorem onGroup_fwHeld (n : Nat) (f : Group → Group) (s : State) : (onGroup n f s).fwHeld = s.fwHeld := rfl
@[simp] theorem onGroup_busAt (n : Nat) (f : Group → Group) (s : State) : (onGroup n f s).busAt = s.busAt := rfl
@[simp] theorem onGroup_fwMka (n : Nat) (f : Group → Group) (s : State) : (onGroup n f s).fwMka = s.fwMka := rfl

/-! ### `onPort` -/

@[simp] theorem onPort_pending (n : Nat) (f : Port → Port) (s : State) : (onPort n f s).pending = s.pending := rfl
@[simp] theorem onPort_free (n : Nat) (f : Port → Port) (s : State) : (onPort n f s).free = s.free := rfl
@[simp] theorem onPort_regs (n : Nat) (f : Port → Port) (s : State) : (onPort n f s).regs = s.regs := rfl
@[simp] theorem onPort_latches (n : Nat) (f : Port → Port) (s : State) : (onPort n f s).latches = s.latches := rfl
@[simp] theorem onPort_log (n : Nat) (f : Port → Port) (s : State) : (onPort n f s).log = s.log := rfl
@[simp] theorem onPort_tsc (n : Nat) (f : Port → Port) (s : State) : (onPort n f s).tsc = s.tsc := rfl
@[simp] theorem onPort_sth (n : Nat) (f : Port → Port) (s : State) : (onPort n f s).sth = s.sth := rfl
@[simp] theorem onPort_cmds (n : Nat) (f : Port → Port) (s : State) : (onPort n f s).cmds = s.cmds := rfl
@[simp] theorem onPort_clusters (n : Nat) (f : Port → Port) (s : State) : (onPort n f s).clusters = s.clusters := rfl
@[simp] theorem onPort_dev (n : Nat) (f : Port → Port) (s : State) : (onPort n f s).dev = s.dev := rfl
@[simp] theorem onPort_poison (n : Nat) (f : Port → Port) (s : State) : (onPort n f s).poison = s.poison := rfl
@[simp] theorem onPort_writes (n : Nat) (f : Port → Port) (s : State) : (onPort n f s).writes = s.writes := rfl
@[simp] theorem onPort_nextWrite (n : Nat) (f : Port → Port) (s : State) : (onPort n f s).nextWrite = s.nextWrite := rfl
@[simp] theorem onPort_pages (n : Nat) (f : Port → Port) (s : State) : (onPort n f s).pages = s.pages := rfl
@[simp] theorem onPort_waitReads (n : Nat) (f : Port → Port) (s : State) : (onPort n f s).waitReads = s.waitReads := rfl
@[simp] theorem onPort_mapReqs (n : Nat) (f : Port → Port) (s : State) : (onPort n f s).mapReqs = s.mapReqs := rfl
@[simp] theorem onPort_aborts (n : Nat) (f : Port → Port) (s : State) : (onPort n f s).aborts = s.aborts := rfl
@[simp] theorem onPort_pgResult (n : Nat) (f : Port → Port) (s : State) : (onPort n f s).pgResult = s.pgResult := rfl
@[simp] theorem onPort_pgState (n : Nat) (f : Port → Port) (s : State) : (onPort n f s).pgState = s.pgState := rfl
@[simp] theorem onPort_convZeroed (n : Nat) (f : Port → Port) (s : State) : (onPort n f s).convZeroed = s.convZeroed := rfl
@[simp] theorem onPort_convSat (n : Nat) (f : Port → Port) (s : State) : (onPort n f s).convSat = s.convSat := rfl
@[simp] theorem onPort_scheds (n : Nat) (f : Port → Port) (s : State) : (onPort n f s).scheds = s.scheds := rfl
@[simp] theorem onPort_ftl (n : Nat) (f : Port → Port) (s : State) : (onPort n f s).ftl = s.ftl := rfl
@[simp] theorem onPort_loads (n : Nat) (f : Port → Port) (s : State) : (onPort n f s).loads = s.loads := rfl
@[simp] theorem onPort_borrows (n : Nat) (f : Port → Port) (s : State) : (onPort n f s).borrows = s.borrows := rfl
@[simp] theorem onPort_lents (n : Nat) (f : Port → Port) (s : State) : (onPort n f s).lents = s.lents := rfl
@[simp] theorem onPort_slots (n : Nat) (f : Port → Port) (s : State) : (onPort n f s).slots = s.slots := rfl
@[simp] theorem onPort_groups (n : Nat) (f : Port → Port) (s : State) : (onPort n f s).groups = s.groups := rfl
@[simp] theorem onPort_redWaits (n : Nat) (f : Port → Port) (s : State) : (onPort n f s).redWaits = s.redWaits := rfl
@[simp] theorem onPort_voteWaits (n : Nat) (f : Port → Port) (s : State) : (onPort n f s).voteWaits = s.voteWaits := rfl
@[simp] theorem onPort_grtDropped (n : Nat) (f : Port → Port) (s : State) : (onPort n f s).grtDropped = s.grtDropped := rfl
@[simp] theorem onPort_grtFails (n : Nat) (f : Port → Port) (s : State) : (onPort n f s).grtFails = s.grtFails := rfl
@[simp] theorem onPort_sessions (n : Nat) (f : Port → Port) (s : State) : (onPort n f s).sessions = s.sessions := rfl
@[simp] theorem onPort_nextSid (n : Nat) (f : Port → Port) (s : State) : (onPort n f s).nextSid = s.nextSid := rfl
@[simp] theorem onPort_authFails (n : Nat) (f : Port → Port) (s : State) : (onPort n f s).authFails = s.authFails := rfl
@[simp] theorem onPort_drops (n : Nat) (f : Port → Port) (s : State) : (onPort n f s).drops = s.drops := rfl
@[simp] theorem onPort_locks (n : Nat) (f : Port → Port) (s : State) : (onPort n f s).locks = s.locks := rfl
@[simp] theorem onPort_refusals (n : Nat) (f : Port → Port) (s : State) : (onPort n f s).refusals = s.refusals := rfl
@[simp] theorem onPort_expired (n : Nat) (f : Port → Port) (s : State) : (onPort n f s).expired = s.expired := rfl
@[simp] theorem onPort_peers (n : Nat) (f : Port → Port) (s : State) : (onPort n f s).peers = s.peers := rfl
@[simp] theorem onPort_peerReload (n : Nat) (f : Port → Port) (s : State) : (onPort n f s).peerReload = s.peerReload := rfl
@[simp] theorem onPort_peerErr (n : Nat) (f : Port → Port) (s : State) : (onPort n f s).peerErr = s.peerErr := rfl
@[simp] theorem onPort_reds (n : Nat) (f : Port → Port) (s : State) : (onPort n f s).reds = s.reds := rfl
@[simp] theorem onPort_ports (n : Nat) (f : Port → Port) (s : State) :
    (onPort n f s).ports = setAt s.ports n (f (s.port n)) := rfl
@[simp] theorem onPort_planeLost (n : Nat) (f : Port → Port) (s : State) : (onPort n f s).planeLost = s.planeLost := rfl
@[simp] theorem onPort_planeBack (n : Nat) (f : Port → Port) (s : State) : (onPort n f s).planeBack = s.planeBack := rfl
@[simp] theorem onPort_unacked (n : Nat) (f : Port → Port) (s : State) : (onPort n f s).unacked = s.unacked := rfl
@[simp] theorem onPort_queued (n : Nat) (f : Port → Port) (s : State) : (onPort n f s).queued = s.queued := rfl
@[simp] theorem onPort_tx (n : Nat) (f : Port → Port) (s : State) : (onPort n f s).tx = s.tx := rfl
@[simp] theorem onPort_spr (n : Nat) (f : Port → Port) (s : State) : (onPort n f s).spr = s.spr := rfl
@[simp] theorem onPort_ckp (n : Nat) (f : Port → Port) (s : State) : (onPort n f s).ckp = s.ckp := rfl
@[simp] theorem onPort_sec (n : Nat) (f : Port → Port) (s : State) : (onPort n f s).sec = s.sec := rfl
@[simp] theorem onPort_kept (n : Nat) (f : Port → Port) (s : State) : (onPort n f s).kept = s.kept := rfl
@[simp] theorem onPort_pwr (n : Nat) (f : Port → Port) (s : State) : (onPort n f s).pwr = s.pwr := rfl
@[simp] theorem onPort_caps (n : Nat) (f : Port → Port) (s : State) : (onPort n f s).caps = s.caps := rfl
@[simp] theorem onPort_modes (n : Nat) (f : Port → Port) (s : State) : (onPort n f s).modes = s.modes := rfl
@[simp] theorem onPort_fwDown (n : Nat) (f : Port → Port) (s : State) : (onPort n f s).fwDown = s.fwDown := rfl
@[simp] theorem onPort_fwHeld (n : Nat) (f : Port → Port) (s : State) : (onPort n f s).fwHeld = s.fwHeld := rfl
@[simp] theorem onPort_busAt (n : Nat) (f : Port → Port) (s : State) : (onPort n f s).busAt = s.busAt := rfl
@[simp] theorem onPort_fwMka (n : Nat) (f : Port → Port) (s : State) : (onPort n f s).fwMka = s.fwMka := rfl

/-! ### `onSched` -/

@[simp] theorem onSched_pending (n : Nat) (f : Sched → Sched) (s : State) : (onSched n f s).pending = s.pending := rfl
@[simp] theorem onSched_free (n : Nat) (f : Sched → Sched) (s : State) : (onSched n f s).free = s.free := rfl
@[simp] theorem onSched_regs (n : Nat) (f : Sched → Sched) (s : State) : (onSched n f s).regs = s.regs := rfl
@[simp] theorem onSched_latches (n : Nat) (f : Sched → Sched) (s : State) : (onSched n f s).latches = s.latches := rfl
@[simp] theorem onSched_log (n : Nat) (f : Sched → Sched) (s : State) : (onSched n f s).log = s.log := rfl
@[simp] theorem onSched_tsc (n : Nat) (f : Sched → Sched) (s : State) : (onSched n f s).tsc = s.tsc := rfl
@[simp] theorem onSched_sth (n : Nat) (f : Sched → Sched) (s : State) : (onSched n f s).sth = s.sth := rfl
@[simp] theorem onSched_cmds (n : Nat) (f : Sched → Sched) (s : State) : (onSched n f s).cmds = s.cmds := rfl
@[simp] theorem onSched_clusters (n : Nat) (f : Sched → Sched) (s : State) : (onSched n f s).clusters = s.clusters := rfl
@[simp] theorem onSched_dev (n : Nat) (f : Sched → Sched) (s : State) : (onSched n f s).dev = s.dev := rfl
@[simp] theorem onSched_poison (n : Nat) (f : Sched → Sched) (s : State) : (onSched n f s).poison = s.poison := rfl
@[simp] theorem onSched_writes (n : Nat) (f : Sched → Sched) (s : State) : (onSched n f s).writes = s.writes := rfl
@[simp] theorem onSched_nextWrite (n : Nat) (f : Sched → Sched) (s : State) : (onSched n f s).nextWrite = s.nextWrite := rfl
@[simp] theorem onSched_pages (n : Nat) (f : Sched → Sched) (s : State) : (onSched n f s).pages = s.pages := rfl
@[simp] theorem onSched_waitReads (n : Nat) (f : Sched → Sched) (s : State) : (onSched n f s).waitReads = s.waitReads := rfl
@[simp] theorem onSched_mapReqs (n : Nat) (f : Sched → Sched) (s : State) : (onSched n f s).mapReqs = s.mapReqs := rfl
@[simp] theorem onSched_aborts (n : Nat) (f : Sched → Sched) (s : State) : (onSched n f s).aborts = s.aborts := rfl
@[simp] theorem onSched_pgResult (n : Nat) (f : Sched → Sched) (s : State) : (onSched n f s).pgResult = s.pgResult := rfl
@[simp] theorem onSched_pgState (n : Nat) (f : Sched → Sched) (s : State) : (onSched n f s).pgState = s.pgState := rfl
@[simp] theorem onSched_convZeroed (n : Nat) (f : Sched → Sched) (s : State) :
    (onSched n f s).convZeroed = s.convZeroed := rfl
@[simp] theorem onSched_convSat (n : Nat) (f : Sched → Sched) (s : State) : (onSched n f s).convSat = s.convSat := rfl
@[simp] theorem onSched_scheds (n : Nat) (f : Sched → Sched) (s : State) :
    (onSched n f s).scheds = setAt s.scheds n (f (s.sched n)) := rfl
@[simp] theorem onSched_ftl (n : Nat) (f : Sched → Sched) (s : State) : (onSched n f s).ftl = s.ftl := rfl
@[simp] theorem onSched_loads (n : Nat) (f : Sched → Sched) (s : State) : (onSched n f s).loads = s.loads := rfl
@[simp] theorem onSched_borrows (n : Nat) (f : Sched → Sched) (s : State) : (onSched n f s).borrows = s.borrows := rfl
@[simp] theorem onSched_lents (n : Nat) (f : Sched → Sched) (s : State) : (onSched n f s).lents = s.lents := rfl
@[simp] theorem onSched_slots (n : Nat) (f : Sched → Sched) (s : State) : (onSched n f s).slots = s.slots := rfl
@[simp] theorem onSched_groups (n : Nat) (f : Sched → Sched) (s : State) : (onSched n f s).groups = s.groups := rfl
@[simp] theorem onSched_redWaits (n : Nat) (f : Sched → Sched) (s : State) : (onSched n f s).redWaits = s.redWaits := rfl
@[simp] theorem onSched_voteWaits (n : Nat) (f : Sched → Sched) (s : State) : (onSched n f s).voteWaits = s.voteWaits := rfl
@[simp] theorem onSched_grtDropped (n : Nat) (f : Sched → Sched) (s : State) :
    (onSched n f s).grtDropped = s.grtDropped := rfl
@[simp] theorem onSched_grtFails (n : Nat) (f : Sched → Sched) (s : State) : (onSched n f s).grtFails = s.grtFails := rfl
@[simp] theorem onSched_sessions (n : Nat) (f : Sched → Sched) (s : State) : (onSched n f s).sessions = s.sessions := rfl
@[simp] theorem onSched_nextSid (n : Nat) (f : Sched → Sched) (s : State) : (onSched n f s).nextSid = s.nextSid := rfl
@[simp] theorem onSched_authFails (n : Nat) (f : Sched → Sched) (s : State) : (onSched n f s).authFails = s.authFails := rfl
@[simp] theorem onSched_drops (n : Nat) (f : Sched → Sched) (s : State) : (onSched n f s).drops = s.drops := rfl
@[simp] theorem onSched_locks (n : Nat) (f : Sched → Sched) (s : State) : (onSched n f s).locks = s.locks := rfl
@[simp] theorem onSched_refusals (n : Nat) (f : Sched → Sched) (s : State) : (onSched n f s).refusals = s.refusals := rfl
@[simp] theorem onSched_expired (n : Nat) (f : Sched → Sched) (s : State) : (onSched n f s).expired = s.expired := rfl
@[simp] theorem onSched_peers (n : Nat) (f : Sched → Sched) (s : State) : (onSched n f s).peers = s.peers := rfl
@[simp] theorem onSched_peerReload (n : Nat) (f : Sched → Sched) (s : State) :
    (onSched n f s).peerReload = s.peerReload := rfl
@[simp] theorem onSched_peerErr (n : Nat) (f : Sched → Sched) (s : State) : (onSched n f s).peerErr = s.peerErr := rfl
@[simp] theorem onSched_reds (n : Nat) (f : Sched → Sched) (s : State) : (onSched n f s).reds = s.reds := rfl
@[simp] theorem onSched_ports (n : Nat) (f : Sched → Sched) (s : State) : (onSched n f s).ports = s.ports := rfl
@[simp] theorem onSched_planeLost (n : Nat) (f : Sched → Sched) (s : State) : (onSched n f s).planeLost = s.planeLost := rfl
@[simp] theorem onSched_planeBack (n : Nat) (f : Sched → Sched) (s : State) : (onSched n f s).planeBack = s.planeBack := rfl
@[simp] theorem onSched_unacked (n : Nat) (f : Sched → Sched) (s : State) : (onSched n f s).unacked = s.unacked := rfl
@[simp] theorem onSched_queued (n : Nat) (f : Sched → Sched) (s : State) : (onSched n f s).queued = s.queued := rfl
@[simp] theorem onSched_tx (n : Nat) (f : Sched → Sched) (s : State) : (onSched n f s).tx = s.tx := rfl
@[simp] theorem onSched_spr (n : Nat) (f : Sched → Sched) (s : State) : (onSched n f s).spr = s.spr := rfl
@[simp] theorem onSched_ckp (n : Nat) (f : Sched → Sched) (s : State) : (onSched n f s).ckp = s.ckp := rfl
@[simp] theorem onSched_sec (n : Nat) (f : Sched → Sched) (s : State) : (onSched n f s).sec = s.sec := rfl
@[simp] theorem onSched_kept (n : Nat) (f : Sched → Sched) (s : State) : (onSched n f s).kept = s.kept := rfl
@[simp] theorem onSched_pwr (n : Nat) (f : Sched → Sched) (s : State) : (onSched n f s).pwr = s.pwr := rfl
@[simp] theorem onSched_caps (n : Nat) (f : Sched → Sched) (s : State) : (onSched n f s).caps = s.caps := rfl
@[simp] theorem onSched_modes (n : Nat) (f : Sched → Sched) (s : State) : (onSched n f s).modes = s.modes := rfl
@[simp] theorem onSched_fwDown (n : Nat) (f : Sched → Sched) (s : State) : (onSched n f s).fwDown = s.fwDown := rfl
@[simp] theorem onSched_fwHeld (n : Nat) (f : Sched → Sched) (s : State) : (onSched n f s).fwHeld = s.fwHeld := rfl
@[simp] theorem onSched_busAt (n : Nat) (f : Sched → Sched) (s : State) : (onSched n f s).busAt = s.busAt := rfl
@[simp] theorem onSched_fwMka (n : Nat) (f : Sched → Sched) (s : State) : (onSched n f s).fwMka = s.fwMka := rfl

/-! ### `onBorrow` -/

@[simp] theorem onBorrow_pending (n : Nat) (f : Borrow → Borrow) (s : State) : (onBorrow n f s).pending = s.pending := rfl
@[simp] theorem onBorrow_free (n : Nat) (f : Borrow → Borrow) (s : State) : (onBorrow n f s).free = s.free := rfl
@[simp] theorem onBorrow_regs (n : Nat) (f : Borrow → Borrow) (s : State) : (onBorrow n f s).regs = s.regs := rfl
@[simp] theorem onBorrow_latches (n : Nat) (f : Borrow → Borrow) (s : State) : (onBorrow n f s).latches = s.latches := rfl
@[simp] theorem onBorrow_log (n : Nat) (f : Borrow → Borrow) (s : State) : (onBorrow n f s).log = s.log := rfl
@[simp] theorem onBorrow_tsc (n : Nat) (f : Borrow → Borrow) (s : State) : (onBorrow n f s).tsc = s.tsc := rfl
@[simp] theorem onBorrow_sth (n : Nat) (f : Borrow → Borrow) (s : State) : (onBorrow n f s).sth = s.sth := rfl
@[simp] theorem onBorrow_cmds (n : Nat) (f : Borrow → Borrow) (s : State) : (onBorrow n f s).cmds = s.cmds := rfl
@[simp] theorem onBorrow_clusters (n : Nat) (f : Borrow → Borrow) (s : State) : (onBorrow n f s).clusters = s.clusters := rfl
@[simp] theorem onBorrow_dev (n : Nat) (f : Borrow → Borrow) (s : State) : (onBorrow n f s).dev = s.dev := rfl
@[simp] theorem onBorrow_poison (n : Nat) (f : Borrow → Borrow) (s : State) : (onBorrow n f s).poison = s.poison := rfl
@[simp] theorem onBorrow_writes (n : Nat) (f : Borrow → Borrow) (s : State) : (onBorrow n f s).writes = s.writes := rfl
@[simp] theorem onBorrow_nextWrite (n : Nat) (f : Borrow → Borrow) (s : State) :
    (onBorrow n f s).nextWrite = s.nextWrite := rfl
@[simp] theorem onBorrow_pages (n : Nat) (f : Borrow → Borrow) (s : State) : (onBorrow n f s).pages = s.pages := rfl
@[simp] theorem onBorrow_waitReads (n : Nat) (f : Borrow → Borrow) (s : State) :
    (onBorrow n f s).waitReads = s.waitReads := rfl
@[simp] theorem onBorrow_mapReqs (n : Nat) (f : Borrow → Borrow) (s : State) : (onBorrow n f s).mapReqs = s.mapReqs := rfl
@[simp] theorem onBorrow_aborts (n : Nat) (f : Borrow → Borrow) (s : State) : (onBorrow n f s).aborts = s.aborts := rfl
@[simp] theorem onBorrow_pgResult (n : Nat) (f : Borrow → Borrow) (s : State) : (onBorrow n f s).pgResult = s.pgResult := rfl
@[simp] theorem onBorrow_pgState (n : Nat) (f : Borrow → Borrow) (s : State) : (onBorrow n f s).pgState = s.pgState := rfl
@[simp] theorem onBorrow_convZeroed (n : Nat) (f : Borrow → Borrow) (s : State) :
    (onBorrow n f s).convZeroed = s.convZeroed := rfl
@[simp] theorem onBorrow_convSat (n : Nat) (f : Borrow → Borrow) (s : State) : (onBorrow n f s).convSat = s.convSat := rfl
@[simp] theorem onBorrow_scheds (n : Nat) (f : Borrow → Borrow) (s : State) : (onBorrow n f s).scheds = s.scheds := rfl
@[simp] theorem onBorrow_ftl (n : Nat) (f : Borrow → Borrow) (s : State) : (onBorrow n f s).ftl = s.ftl := rfl
@[simp] theorem onBorrow_loads (n : Nat) (f : Borrow → Borrow) (s : State) : (onBorrow n f s).loads = s.loads := rfl
@[simp] theorem onBorrow_borrows (n : Nat) (f : Borrow → Borrow) (s : State) :
    (onBorrow n f s).borrows = setAt s.borrows n (f (s.borrow n)) := rfl
@[simp] theorem onBorrow_lents (n : Nat) (f : Borrow → Borrow) (s : State) : (onBorrow n f s).lents = s.lents := rfl
@[simp] theorem onBorrow_slots (n : Nat) (f : Borrow → Borrow) (s : State) : (onBorrow n f s).slots = s.slots := rfl
@[simp] theorem onBorrow_groups (n : Nat) (f : Borrow → Borrow) (s : State) : (onBorrow n f s).groups = s.groups := rfl
@[simp] theorem onBorrow_redWaits (n : Nat) (f : Borrow → Borrow) (s : State) : (onBorrow n f s).redWaits = s.redWaits := rfl
@[simp] theorem onBorrow_voteWaits (n : Nat) (f : Borrow → Borrow) (s : State) : (onBorrow n f s).voteWaits = s.voteWaits := rfl
@[simp] theorem onBorrow_grtDropped (n : Nat) (f : Borrow → Borrow) (s : State) :
    (onBorrow n f s).grtDropped = s.grtDropped := rfl
@[simp] theorem onBorrow_grtFails (n : Nat) (f : Borrow → Borrow) (s : State) : (onBorrow n f s).grtFails = s.grtFails := rfl
@[simp] theorem onBorrow_sessions (n : Nat) (f : Borrow → Borrow) (s : State) : (onBorrow n f s).sessions = s.sessions := rfl
@[simp] theorem onBorrow_nextSid (n : Nat) (f : Borrow → Borrow) (s : State) : (onBorrow n f s).nextSid = s.nextSid := rfl
@[simp] theorem onBorrow_authFails (n : Nat) (f : Borrow → Borrow) (s : State) :
    (onBorrow n f s).authFails = s.authFails := rfl
@[simp] theorem onBorrow_drops (n : Nat) (f : Borrow → Borrow) (s : State) : (onBorrow n f s).drops = s.drops := rfl
@[simp] theorem onBorrow_locks (n : Nat) (f : Borrow → Borrow) (s : State) : (onBorrow n f s).locks = s.locks := rfl
@[simp] theorem onBorrow_refusals (n : Nat) (f : Borrow → Borrow) (s : State) : (onBorrow n f s).refusals = s.refusals := rfl
@[simp] theorem onBorrow_expired (n : Nat) (f : Borrow → Borrow) (s : State) : (onBorrow n f s).expired = s.expired := rfl
@[simp] theorem onBorrow_peers (n : Nat) (f : Borrow → Borrow) (s : State) : (onBorrow n f s).peers = s.peers := rfl
@[simp] theorem onBorrow_peerReload (n : Nat) (f : Borrow → Borrow) (s : State) :
    (onBorrow n f s).peerReload = s.peerReload := rfl
@[simp] theorem onBorrow_peerErr (n : Nat) (f : Borrow → Borrow) (s : State) : (onBorrow n f s).peerErr = s.peerErr := rfl
@[simp] theorem onBorrow_reds (n : Nat) (f : Borrow → Borrow) (s : State) : (onBorrow n f s).reds = s.reds := rfl
@[simp] theorem onBorrow_ports (n : Nat) (f : Borrow → Borrow) (s : State) : (onBorrow n f s).ports = s.ports := rfl
@[simp] theorem onBorrow_planeLost (n : Nat) (f : Borrow → Borrow) (s : State) :
    (onBorrow n f s).planeLost = s.planeLost := rfl
@[simp] theorem onBorrow_planeBack (n : Nat) (f : Borrow → Borrow) (s : State) :
    (onBorrow n f s).planeBack = s.planeBack := rfl
@[simp] theorem onBorrow_unacked (n : Nat) (f : Borrow → Borrow) (s : State) : (onBorrow n f s).unacked = s.unacked := rfl
@[simp] theorem onBorrow_queued (n : Nat) (f : Borrow → Borrow) (s : State) : (onBorrow n f s).queued = s.queued := rfl
@[simp] theorem onBorrow_tx (n : Nat) (f : Borrow → Borrow) (s : State) : (onBorrow n f s).tx = s.tx := rfl
@[simp] theorem onBorrow_spr (n : Nat) (f : Borrow → Borrow) (s : State) : (onBorrow n f s).spr = s.spr := rfl
@[simp] theorem onBorrow_ckp (n : Nat) (f : Borrow → Borrow) (s : State) : (onBorrow n f s).ckp = s.ckp := rfl
@[simp] theorem onBorrow_sec (n : Nat) (f : Borrow → Borrow) (s : State) : (onBorrow n f s).sec = s.sec := rfl
@[simp] theorem onBorrow_kept (n : Nat) (f : Borrow → Borrow) (s : State) : (onBorrow n f s).kept = s.kept := rfl
@[simp] theorem onBorrow_pwr (n : Nat) (f : Borrow → Borrow) (s : State) : (onBorrow n f s).pwr = s.pwr := rfl
@[simp] theorem onBorrow_caps (n : Nat) (f : Borrow → Borrow) (s : State) : (onBorrow n f s).caps = s.caps := rfl
@[simp] theorem onBorrow_modes (n : Nat) (f : Borrow → Borrow) (s : State) : (onBorrow n f s).modes = s.modes := rfl
@[simp] theorem onBorrow_fwDown (n : Nat) (f : Borrow → Borrow) (s : State) : (onBorrow n f s).fwDown = s.fwDown := rfl
@[simp] theorem onBorrow_fwHeld (n : Nat) (f : Borrow → Borrow) (s : State) : (onBorrow n f s).fwHeld = s.fwHeld := rfl
@[simp] theorem onBorrow_busAt (n : Nat) (f : Borrow → Borrow) (s : State) : (onBorrow n f s).busAt = s.busAt := rfl
@[simp] theorem onBorrow_fwMka (n : Nat) (f : Borrow → Borrow) (s : State) : (onBorrow n f s).fwMka = s.fwMka := rfl

/-! ### `onLent` -/

@[simp] theorem onLent_pending (n : Nat) (f : Lent → Lent) (s : State) : (onLent n f s).pending = s.pending := rfl
@[simp] theorem onLent_free (n : Nat) (f : Lent → Lent) (s : State) : (onLent n f s).free = s.free := rfl
@[simp] theorem onLent_regs (n : Nat) (f : Lent → Lent) (s : State) : (onLent n f s).regs = s.regs := rfl
@[simp] theorem onLent_latches (n : Nat) (f : Lent → Lent) (s : State) : (onLent n f s).latches = s.latches := rfl
@[simp] theorem onLent_log (n : Nat) (f : Lent → Lent) (s : State) : (onLent n f s).log = s.log := rfl
@[simp] theorem onLent_tsc (n : Nat) (f : Lent → Lent) (s : State) : (onLent n f s).tsc = s.tsc := rfl
@[simp] theorem onLent_sth (n : Nat) (f : Lent → Lent) (s : State) : (onLent n f s).sth = s.sth := rfl
@[simp] theorem onLent_cmds (n : Nat) (f : Lent → Lent) (s : State) : (onLent n f s).cmds = s.cmds := rfl
@[simp] theorem onLent_clusters (n : Nat) (f : Lent → Lent) (s : State) : (onLent n f s).clusters = s.clusters := rfl
@[simp] theorem onLent_dev (n : Nat) (f : Lent → Lent) (s : State) : (onLent n f s).dev = s.dev := rfl
@[simp] theorem onLent_poison (n : Nat) (f : Lent → Lent) (s : State) : (onLent n f s).poison = s.poison := rfl
@[simp] theorem onLent_writes (n : Nat) (f : Lent → Lent) (s : State) : (onLent n f s).writes = s.writes := rfl
@[simp] theorem onLent_nextWrite (n : Nat) (f : Lent → Lent) (s : State) : (onLent n f s).nextWrite = s.nextWrite := rfl
@[simp] theorem onLent_pages (n : Nat) (f : Lent → Lent) (s : State) : (onLent n f s).pages = s.pages := rfl
@[simp] theorem onLent_waitReads (n : Nat) (f : Lent → Lent) (s : State) : (onLent n f s).waitReads = s.waitReads := rfl
@[simp] theorem onLent_mapReqs (n : Nat) (f : Lent → Lent) (s : State) : (onLent n f s).mapReqs = s.mapReqs := rfl
@[simp] theorem onLent_aborts (n : Nat) (f : Lent → Lent) (s : State) : (onLent n f s).aborts = s.aborts := rfl
@[simp] theorem onLent_pgResult (n : Nat) (f : Lent → Lent) (s : State) : (onLent n f s).pgResult = s.pgResult := rfl
@[simp] theorem onLent_pgState (n : Nat) (f : Lent → Lent) (s : State) : (onLent n f s).pgState = s.pgState := rfl
@[simp] theorem onLent_convZeroed (n : Nat) (f : Lent → Lent) (s : State) : (onLent n f s).convZeroed = s.convZeroed := rfl
@[simp] theorem onLent_convSat (n : Nat) (f : Lent → Lent) (s : State) : (onLent n f s).convSat = s.convSat := rfl
@[simp] theorem onLent_scheds (n : Nat) (f : Lent → Lent) (s : State) : (onLent n f s).scheds = s.scheds := rfl
@[simp] theorem onLent_ftl (n : Nat) (f : Lent → Lent) (s : State) : (onLent n f s).ftl = s.ftl := rfl
@[simp] theorem onLent_loads (n : Nat) (f : Lent → Lent) (s : State) : (onLent n f s).loads = s.loads := rfl
@[simp] theorem onLent_borrows (n : Nat) (f : Lent → Lent) (s : State) : (onLent n f s).borrows = s.borrows := rfl
@[simp] theorem onLent_lents (n : Nat) (f : Lent → Lent) (s : State) :
    (onLent n f s).lents = setAt s.lents n (f (s.lent n)) := rfl
@[simp] theorem onLent_slots (n : Nat) (f : Lent → Lent) (s : State) : (onLent n f s).slots = s.slots := rfl
@[simp] theorem onLent_groups (n : Nat) (f : Lent → Lent) (s : State) : (onLent n f s).groups = s.groups := rfl
@[simp] theorem onLent_redWaits (n : Nat) (f : Lent → Lent) (s : State) : (onLent n f s).redWaits = s.redWaits := rfl
@[simp] theorem onLent_voteWaits (n : Nat) (f : Lent → Lent) (s : State) : (onLent n f s).voteWaits = s.voteWaits := rfl
@[simp] theorem onLent_grtDropped (n : Nat) (f : Lent → Lent) (s : State) : (onLent n f s).grtDropped = s.grtDropped := rfl
@[simp] theorem onLent_grtFails (n : Nat) (f : Lent → Lent) (s : State) : (onLent n f s).grtFails = s.grtFails := rfl
@[simp] theorem onLent_sessions (n : Nat) (f : Lent → Lent) (s : State) : (onLent n f s).sessions = s.sessions := rfl
@[simp] theorem onLent_nextSid (n : Nat) (f : Lent → Lent) (s : State) : (onLent n f s).nextSid = s.nextSid := rfl
@[simp] theorem onLent_authFails (n : Nat) (f : Lent → Lent) (s : State) : (onLent n f s).authFails = s.authFails := rfl
@[simp] theorem onLent_drops (n : Nat) (f : Lent → Lent) (s : State) : (onLent n f s).drops = s.drops := rfl
@[simp] theorem onLent_locks (n : Nat) (f : Lent → Lent) (s : State) : (onLent n f s).locks = s.locks := rfl
@[simp] theorem onLent_refusals (n : Nat) (f : Lent → Lent) (s : State) : (onLent n f s).refusals = s.refusals := rfl
@[simp] theorem onLent_expired (n : Nat) (f : Lent → Lent) (s : State) : (onLent n f s).expired = s.expired := rfl
@[simp] theorem onLent_peers (n : Nat) (f : Lent → Lent) (s : State) : (onLent n f s).peers = s.peers := rfl
@[simp] theorem onLent_peerReload (n : Nat) (f : Lent → Lent) (s : State) : (onLent n f s).peerReload = s.peerReload := rfl
@[simp] theorem onLent_peerErr (n : Nat) (f : Lent → Lent) (s : State) : (onLent n f s).peerErr = s.peerErr := rfl
@[simp] theorem onLent_reds (n : Nat) (f : Lent → Lent) (s : State) : (onLent n f s).reds = s.reds := rfl
@[simp] theorem onLent_ports (n : Nat) (f : Lent → Lent) (s : State) : (onLent n f s).ports = s.ports := rfl
@[simp] theorem onLent_planeLost (n : Nat) (f : Lent → Lent) (s : State) : (onLent n f s).planeLost = s.planeLost := rfl
@[simp] theorem onLent_planeBack (n : Nat) (f : Lent → Lent) (s : State) : (onLent n f s).planeBack = s.planeBack := rfl
@[simp] theorem onLent_unacked (n : Nat) (f : Lent → Lent) (s : State) : (onLent n f s).unacked = s.unacked := rfl
@[simp] theorem onLent_queued (n : Nat) (f : Lent → Lent) (s : State) : (onLent n f s).queued = s.queued := rfl
@[simp] theorem onLent_tx (n : Nat) (f : Lent → Lent) (s : State) : (onLent n f s).tx = s.tx := rfl
@[simp] theorem onLent_spr (n : Nat) (f : Lent → Lent) (s : State) : (onLent n f s).spr = s.spr := rfl
@[simp] theorem onLent_ckp (n : Nat) (f : Lent → Lent) (s : State) : (onLent n f s).ckp = s.ckp := rfl
@[simp] theorem onLent_sec (n : Nat) (f : Lent → Lent) (s : State) : (onLent n f s).sec = s.sec := rfl
@[simp] theorem onLent_kept (n : Nat) (f : Lent → Lent) (s : State) : (onLent n f s).kept = s.kept := rfl
@[simp] theorem onLent_pwr (n : Nat) (f : Lent → Lent) (s : State) : (onLent n f s).pwr = s.pwr := rfl
@[simp] theorem onLent_caps (n : Nat) (f : Lent → Lent) (s : State) : (onLent n f s).caps = s.caps := rfl
@[simp] theorem onLent_modes (n : Nat) (f : Lent → Lent) (s : State) : (onLent n f s).modes = s.modes := rfl
@[simp] theorem onLent_fwDown (n : Nat) (f : Lent → Lent) (s : State) : (onLent n f s).fwDown = s.fwDown := rfl
@[simp] theorem onLent_fwHeld (n : Nat) (f : Lent → Lent) (s : State) : (onLent n f s).fwHeld = s.fwHeld := rfl
@[simp] theorem onLent_busAt (n : Nat) (f : Lent → Lent) (s : State) : (onLent n f s).busAt = s.busAt := rfl
@[simp] theorem onLent_fwMka (n : Nat) (f : Lent → Lent) (s : State) : (onLent n f s).fwMka = s.fwMka := rfl

/-! ### `onSession` -/

@[simp] theorem onSession_pending (n : Nat) (f : Session → Session) (s : State) :
    (onSession n f s).pending = s.pending := rfl
@[simp] theorem onSession_free (n : Nat) (f : Session → Session) (s : State) : (onSession n f s).free = s.free := rfl
@[simp] theorem onSession_regs (n : Nat) (f : Session → Session) (s : State) : (onSession n f s).regs = s.regs := rfl
@[simp] theorem onSession_latches (n : Nat) (f : Session → Session) (s : State) :
    (onSession n f s).latches = s.latches := rfl
@[simp] theorem onSession_log (n : Nat) (f : Session → Session) (s : State) : (onSession n f s).log = s.log := rfl
@[simp] theorem onSession_tsc (n : Nat) (f : Session → Session) (s : State) : (onSession n f s).tsc = s.tsc := rfl
@[simp] theorem onSession_sth (n : Nat) (f : Session → Session) (s : State) : (onSession n f s).sth = s.sth := rfl
@[simp] theorem onSession_cmds (n : Nat) (f : Session → Session) (s : State) : (onSession n f s).cmds = s.cmds := rfl
@[simp] theorem onSession_clusters (n : Nat) (f : Session → Session) (s : State) :
    (onSession n f s).clusters = s.clusters := rfl
@[simp] theorem onSession_dev (n : Nat) (f : Session → Session) (s : State) : (onSession n f s).dev = s.dev := rfl
@[simp] theorem onSession_poison (n : Nat) (f : Session → Session) (s : State) : (onSession n f s).poison = s.poison := rfl
@[simp] theorem onSession_writes (n : Nat) (f : Session → Session) (s : State) : (onSession n f s).writes = s.writes := rfl
@[simp] theorem onSession_nextWrite (n : Nat) (f : Session → Session) (s : State) :
    (onSession n f s).nextWrite = s.nextWrite := rfl
@[simp] theorem onSession_pages (n : Nat) (f : Session → Session) (s : State) : (onSession n f s).pages = s.pages := rfl
@[simp] theorem onSession_waitReads (n : Nat) (f : Session → Session) (s : State) :
    (onSession n f s).waitReads = s.waitReads := rfl
@[simp] theorem onSession_mapReqs (n : Nat) (f : Session → Session) (s : State) :
    (onSession n f s).mapReqs = s.mapReqs := rfl
@[simp] theorem onSession_pgResult (n : Nat) (f : Session → Session) (s : State) :
    (onSession n f s).pgResult = s.pgResult := rfl
@[simp] theorem onSession_pgState (n : Nat) (f : Session → Session) (s : State) :
    (onSession n f s).pgState = s.pgState := rfl
@[simp] theorem onSession_convZeroed (n : Nat) (f : Session → Session) (s : State) :
    (onSession n f s).convZeroed = s.convZeroed := rfl
@[simp] theorem onSession_convSat (n : Nat) (f : Session → Session) (s : State) :
    (onSession n f s).convSat = s.convSat := rfl
@[simp] theorem onSession_scheds (n : Nat) (f : Session → Session) (s : State) : (onSession n f s).scheds = s.scheds := rfl
@[simp] theorem onSession_ftl (n : Nat) (f : Session → Session) (s : State) : (onSession n f s).ftl = s.ftl := rfl
@[simp] theorem onSession_loads (n : Nat) (f : Session → Session) (s : State) : (onSession n f s).loads = s.loads := rfl
@[simp] theorem onSession_borrows (n : Nat) (f : Session → Session) (s : State) :
    (onSession n f s).borrows = s.borrows := rfl
@[simp] theorem onSession_lents (n : Nat) (f : Session → Session) (s : State) : (onSession n f s).lents = s.lents := rfl
@[simp] theorem onSession_slots (n : Nat) (f : Session → Session) (s : State) : (onSession n f s).slots = s.slots := rfl
@[simp] theorem onSession_groups (n : Nat) (f : Session → Session) (s : State) : (onSession n f s).groups = s.groups := rfl
@[simp] theorem onSession_redWaits (n : Nat) (f : Session → Session) (s : State) : (onSession n f s).redWaits = s.redWaits := rfl
@[simp] theorem onSession_voteWaits (n : Nat) (f : Session → Session) (s : State) : (onSession n f s).voteWaits = s.voteWaits := rfl
@[simp] theorem onSession_grtDropped (n : Nat) (f : Session → Session) (s : State) :
    (onSession n f s).grtDropped = s.grtDropped := rfl
@[simp] theorem onSession_grtFails (n : Nat) (f : Session → Session) (s : State) :
    (onSession n f s).grtFails = s.grtFails := rfl
@[simp] theorem onSession_sessions (n : Nat) (f : Session → Session) (s : State) :
    (onSession n f s).sessions = updateWhere (fun x => x.sid == n) f s.sessions := rfl
@[simp] theorem onSession_nextSid (n : Nat) (f : Session → Session) (s : State) :
    (onSession n f s).nextSid = s.nextSid := rfl
@[simp] theorem onSession_authFails (n : Nat) (f : Session → Session) (s : State) :
    (onSession n f s).authFails = s.authFails := rfl
@[simp] theorem onSession_drops (n : Nat) (f : Session → Session) (s : State) : (onSession n f s).drops = s.drops := rfl
@[simp] theorem onSession_locks (n : Nat) (f : Session → Session) (s : State) : (onSession n f s).locks = s.locks := rfl
@[simp] theorem onSession_refusals (n : Nat) (f : Session → Session) (s : State) :
    (onSession n f s).refusals = s.refusals := rfl
@[simp] theorem onSession_expired (n : Nat) (f : Session → Session) (s : State) :
    (onSession n f s).expired = s.expired := rfl
@[simp] theorem onSession_peers (n : Nat) (f : Session → Session) (s : State) : (onSession n f s).peers = s.peers := rfl
@[simp] theorem onSession_peerReload (n : Nat) (f : Session → Session) (s : State) :
    (onSession n f s).peerReload = s.peerReload := rfl
@[simp] theorem onSession_peerErr (n : Nat) (f : Session → Session) (s : State) :
    (onSession n f s).peerErr = s.peerErr := rfl
@[simp] theorem onSession_reds (n : Nat) (f : Session → Session) (s : State) : (onSession n f s).reds = s.reds := rfl
@[simp] theorem onSession_ports (n : Nat) (f : Session → Session) (s : State) : (onSession n f s).ports = s.ports := rfl
@[simp] theorem onSession_planeLost (n : Nat) (f : Session → Session) (s : State) :
    (onSession n f s).planeLost = s.planeLost := rfl
@[simp] theorem onSession_planeBack (n : Nat) (f : Session → Session) (s : State) :
    (onSession n f s).planeBack = s.planeBack := rfl
@[simp] theorem onSession_unacked (n : Nat) (f : Session → Session) (s : State) :
    (onSession n f s).unacked = s.unacked := rfl
@[simp] theorem onSession_queued (n : Nat) (f : Session → Session) (s : State) : (onSession n f s).queued = s.queued := rfl
@[simp] theorem onSession_tx (n : Nat) (f : Session → Session) (s : State) : (onSession n f s).tx = s.tx := rfl
@[simp] theorem onSession_spr (n : Nat) (f : Session → Session) (s : State) : (onSession n f s).spr = s.spr := rfl
@[simp] theorem onSession_ckp (n : Nat) (f : Session → Session) (s : State) : (onSession n f s).ckp = s.ckp := rfl
@[simp] theorem onSession_sec (n : Nat) (f : Session → Session) (s : State) : (onSession n f s).sec = s.sec := rfl
@[simp] theorem onSession_kept (n : Nat) (f : Session → Session) (s : State) : (onSession n f s).kept = s.kept := rfl
@[simp] theorem onSession_pwr (n : Nat) (f : Session → Session) (s : State) : (onSession n f s).pwr = s.pwr := rfl
@[simp] theorem onSession_caps (n : Nat) (f : Session → Session) (s : State) : (onSession n f s).caps = s.caps := rfl
@[simp] theorem onSession_modes (n : Nat) (f : Session → Session) (s : State) : (onSession n f s).modes = s.modes := rfl
@[simp] theorem onSession_fwDown (n : Nat) (f : Session → Session) (s : State) : (onSession n f s).fwDown = s.fwDown := rfl
@[simp] theorem onSession_fwHeld (n : Nat) (f : Session → Session) (s : State) : (onSession n f s).fwHeld = s.fwHeld := rfl
@[simp] theorem onSession_busAt (n : Nat) (f : Session → Session) (s : State) : (onSession n f s).busAt = s.busAt := rfl
@[simp] theorem onSession_fwMka (n : Nat) (f : Session → Session) (s : State) : (onSession n f s).fwMka = s.fwMka := rfl

/-! ### `setReg` -/

@[simp] theorem setReg_pending (a v : Nat) (s : State) : (setReg a v s).pending = s.pending := rfl
@[simp] theorem setReg_free (a v : Nat) (s : State) : (setReg a v s).free = s.free := rfl
@[simp] theorem setReg_regs (a v : Nat) (s : State) :
    (setReg a v s).regs = writeAt (resetOf a) s.regs a (BitVec.ofNat 32 v) := rfl
@[simp] theorem setReg_latches (a v : Nat) (s : State) : (setReg a v s).latches = s.latches := rfl
@[simp] theorem setReg_log (a v : Nat) (s : State) : (setReg a v s).log = s.log := rfl
@[simp] theorem setReg_tsc (a v : Nat) (s : State) : (setReg a v s).tsc = s.tsc := rfl
@[simp] theorem setReg_sth (a v : Nat) (s : State) : (setReg a v s).sth = s.sth := rfl
@[simp] theorem setReg_cmds (a v : Nat) (s : State) : (setReg a v s).cmds = s.cmds := rfl
@[simp] theorem setReg_clusters (a v : Nat) (s : State) : (setReg a v s).clusters = s.clusters := rfl
@[simp] theorem setReg_dev (a v : Nat) (s : State) : (setReg a v s).dev = s.dev := rfl
@[simp] theorem setReg_poison (a v : Nat) (s : State) : (setReg a v s).poison = s.poison := rfl
@[simp] theorem setReg_writes (a v : Nat) (s : State) : (setReg a v s).writes = s.writes := rfl
@[simp] theorem setReg_nextWrite (a v : Nat) (s : State) : (setReg a v s).nextWrite = s.nextWrite := rfl
@[simp] theorem setReg_pages (a v : Nat) (s : State) : (setReg a v s).pages = s.pages := rfl
@[simp] theorem setReg_waitReads (a v : Nat) (s : State) : (setReg a v s).waitReads = s.waitReads := rfl
@[simp] theorem setReg_mapReqs (a v : Nat) (s : State) : (setReg a v s).mapReqs = s.mapReqs := rfl
@[simp] theorem setReg_aborts (a v : Nat) (s : State) : (setReg a v s).aborts = s.aborts := rfl
@[simp] theorem setReg_pgResult (a v : Nat) (s : State) : (setReg a v s).pgResult = s.pgResult := rfl
@[simp] theorem setReg_pgState (a v : Nat) (s : State) : (setReg a v s).pgState = s.pgState := rfl
@[simp] theorem setReg_convZeroed (a v : Nat) (s : State) : (setReg a v s).convZeroed = s.convZeroed := rfl
@[simp] theorem setReg_convSat (a v : Nat) (s : State) : (setReg a v s).convSat = s.convSat := rfl
@[simp] theorem setReg_scheds (a v : Nat) (s : State) : (setReg a v s).scheds = s.scheds := rfl
@[simp] theorem setReg_ftl (a v : Nat) (s : State) : (setReg a v s).ftl = s.ftl := rfl
@[simp] theorem setReg_loads (a v : Nat) (s : State) : (setReg a v s).loads = s.loads := rfl
@[simp] theorem setReg_borrows (a v : Nat) (s : State) : (setReg a v s).borrows = s.borrows := rfl
@[simp] theorem setReg_lents (a v : Nat) (s : State) : (setReg a v s).lents = s.lents := rfl
@[simp] theorem setReg_slots (a v : Nat) (s : State) : (setReg a v s).slots = s.slots := rfl
@[simp] theorem setReg_groups (a v : Nat) (s : State) : (setReg a v s).groups = s.groups := rfl
@[simp] theorem setReg_redWaits (a v : Nat) (s : State) : (setReg a v s).redWaits = s.redWaits := rfl
@[simp] theorem setReg_voteWaits (a v : Nat) (s : State) : (setReg a v s).voteWaits = s.voteWaits := rfl
@[simp] theorem setReg_grtDropped (a v : Nat) (s : State) : (setReg a v s).grtDropped = s.grtDropped := rfl
@[simp] theorem setReg_grtFails (a v : Nat) (s : State) : (setReg a v s).grtFails = s.grtFails := rfl
@[simp] theorem setReg_sessions (a v : Nat) (s : State) : (setReg a v s).sessions = s.sessions := rfl
@[simp] theorem setReg_nextSid (a v : Nat) (s : State) : (setReg a v s).nextSid = s.nextSid := rfl
@[simp] theorem setReg_authFails (a v : Nat) (s : State) : (setReg a v s).authFails = s.authFails := rfl
@[simp] theorem setReg_drops (a v : Nat) (s : State) : (setReg a v s).drops = s.drops := rfl
@[simp] theorem setReg_locks (a v : Nat) (s : State) : (setReg a v s).locks = s.locks := rfl
@[simp] theorem setReg_refusals (a v : Nat) (s : State) : (setReg a v s).refusals = s.refusals := rfl
@[simp] theorem setReg_expired (a v : Nat) (s : State) : (setReg a v s).expired = s.expired := rfl
@[simp] theorem setReg_peers (a v : Nat) (s : State) : (setReg a v s).peers = s.peers := rfl
@[simp] theorem setReg_peerReload (a v : Nat) (s : State) : (setReg a v s).peerReload = s.peerReload := rfl
@[simp] theorem setReg_peerErr (a v : Nat) (s : State) : (setReg a v s).peerErr = s.peerErr := rfl
@[simp] theorem setReg_reds (a v : Nat) (s : State) : (setReg a v s).reds = s.reds := rfl
@[simp] theorem setReg_ports (a v : Nat) (s : State) : (setReg a v s).ports = s.ports := rfl
@[simp] theorem setReg_planeLost (a v : Nat) (s : State) : (setReg a v s).planeLost = s.planeLost := rfl
@[simp] theorem setReg_planeBack (a v : Nat) (s : State) : (setReg a v s).planeBack = s.planeBack := rfl
@[simp] theorem setReg_unacked (a v : Nat) (s : State) : (setReg a v s).unacked = s.unacked := rfl
@[simp] theorem setReg_queued (a v : Nat) (s : State) : (setReg a v s).queued = s.queued := rfl
@[simp] theorem setReg_tx (a v : Nat) (s : State) : (setReg a v s).tx = s.tx := rfl
@[simp] theorem setReg_spr (a v : Nat) (s : State) : (setReg a v s).spr = s.spr := rfl
@[simp] theorem setReg_ckp (a v : Nat) (s : State) : (setReg a v s).ckp = s.ckp := rfl
@[simp] theorem setReg_sec (a v : Nat) (s : State) : (setReg a v s).sec = s.sec := rfl
@[simp] theorem setReg_kept (a v : Nat) (s : State) : (setReg a v s).kept = s.kept := rfl
@[simp] theorem setReg_pwr (a v : Nat) (s : State) : (setReg a v s).pwr = s.pwr := rfl
@[simp] theorem setReg_caps (a v : Nat) (s : State) : (setReg a v s).caps = s.caps := rfl
@[simp] theorem setReg_modes (a v : Nat) (s : State) : (setReg a v s).modes = s.modes := rfl
@[simp] theorem setReg_fwDown (a v : Nat) (s : State) : (setReg a v s).fwDown = s.fwDown := rfl
@[simp] theorem setReg_fwHeld (a v : Nat) (s : State) : (setReg a v s).fwHeld = s.fwHeld := rfl
@[simp] theorem setReg_busAt (a v : Nat) (s : State) : (setReg a v s).busAt = s.busAt := rfl
@[simp] theorem setReg_fwMka (a v : Nat) (s : State) : (setReg a v s).fwMka = s.fwMka := rfl

end Sys2Proof.Machine
end

