-- ==== Sys2Proof/Laws/Frames.lean ====
section
/-! SUPPORT. What each shared operation can change: everything it can do to the parts of the state, said once. -/

namespace Sys2Proof.Machine

/-- A property kept by every update of a list is kept by the run of them. -/
theorem forEach_keeps {α : Type} (P : State → Prop) (f : α → State → State) (hf : ∀ x s, P s → P (f x s)) (xs : List α)
    (s : State) (h : P s) : P (forEach xs f s) := by
  unfold forEach
  induction xs generalizing s with
  | nil => exact h
  | cons x xs ih => exact ih _ (hf x s h)

/-! ## Records -/

theorem note_frame (c v t so j tg a : Nat) (s : State) : ∃ l, note c v t so j tg a s = { s with log := l } := by
  unfold note
  split
  · exact ⟨s.log, rfl⟩
  · exact ⟨_, rfl⟩

theorem noteFault_frame (c so : Nat) (s : State) : ∃ l, noteFault c so s =
    { s with log := l, spr := { s.spr with lastCode := c, lastSource := so, lastTime := s.tsc.now } } := by
  unfold noteFault
  obtain ⟨l, h⟩ := note_frame 0x0600 2 s.tsc.now so 0 0 (c * 2 ^ 24 + so)
    (onSpr (fun r => { r with lastCode := c, lastSource := so, lastTime := s.tsc.now }) s)
  exact ⟨l, h⟩

theorem placeLoss_frame (s : State) : ∃ l, placeLoss s = { s with log := l } := by
  unfold placeLoss
  dsimp only
  repeat' split
  all_goals first | exact ⟨s.log, rfl⟩ | exact ⟨_, rfl⟩

theorem evtSweep_frame (s : State) : ∃ l, evtSweep s = { s with log := l } := by
  unfold evtSweep
  dsimp only
  split
  · exact placeLoss_frame s
  · obtain ⟨l, h⟩ := placeLoss_frame (onLog (fun l => { l with held := l.held.filter fun h => match h.seq with
      | some q => !((s.sessions.filter fun x => x.sub.isSome && x.phase != .pending).all fun x => s.evtAcked x q h.evt)
      | none => true }) s)
    exact ⟨l, h⟩

/-! ## Frames sent -/

theorem emit_frame (p : Option Nat) (d : Dest) (q : Option Nat) (r : Bool) (b : Out) (s : State) :
    ∃ x ps, emit p d q r b s = { s with tx := x, ports := ps } := by
  cases p
  · exact ⟨s.tx, s.ports, rfl⟩
  · exact ⟨_, _, rfl⟩

/-- What every sending on a host session can change. -/
def SessionTraffic (s t : State) : Prop :=
  ∃ ss us xs ps, t = { s with sessions := ss, unacked := us, tx := xs, ports := ps }

theorem SessionTraffic.refl (s : State) : SessionTraffic s s := ⟨s.sessions, s.unacked, s.tx, s.ports, rfl⟩

theorem SessionTraffic.trans {s t u : State} (h : SessionTraffic s t) (g : SessionTraffic t u) : SessionTraffic s u := by
  obtain ⟨a, b, c, d, rfl⟩ := h
  obtain ⟨a', b', c', d', rfl⟩ := g
  exact ⟨a', b', c', d', rfl⟩

theorem transmit_traffic (sid : Nat) (q : Option Nat) (r : Bool) (b : Out) (s : State) :
    SessionTraffic s (transmit (.session sid) q r b s) := by
  unfold transmit
  dsimp only
  split
  · rename_i x _
    obtain ⟨xs, ps, h⟩ := emit_frame (s.sessionPort x b) (.session sid) q r b s
    exact ⟨s.sessions, s.unacked, xs, ps, h⟩
  · exact SessionTraffic.refl s

theorem sendAck_traffic (sid n : Nat) (s : State) : SessionTraffic s (sendAck (.session sid) n s) :=
  transmit_traffic sid _ false (.ack n) s

theorem sendNow_traffic (sid : Nat) (b : Out) (s : State) : SessionTraffic s (sendNow (.session sid) b s) := by
  unfold sendNow
  dsimp only
  exact SessionTraffic.trans ⟨_, _, s.tx, s.ports, rfl⟩ (transmit_traffic sid _ false b _)

theorem sendSession_traffic (sid : Nat) (b : Out) (s : State) : SessionTraffic s (sendSession sid b s) := by
  unfold sendSession
  split
  · split
    · exact sendNow_traffic sid b s
    · split
      · exact SessionTraffic.refl s
      · exact ⟨_, s.unacked, s.tx, s.ports, rfl⟩
  · exact SessionTraffic.refl s

theorem sendStatus_traffic (id st c a : Nat) (s : State) : SessionTraffic s (sendStatus id st c a s) := by
  unfold sendStatus
  split
  · exact sendSession_traffic _ _ _
  · exact SessionTraffic.refl s

theorem flushWaiting_traffic (sid fuel : Nat) (s : State) : SessionTraffic s (flushWaiting sid fuel s) := by
  induction fuel generalizing s with
  | zero => exact SessionTraffic.refl s
  | succ n ih =>
    unfold flushWaiting
    split
    · split
      · split
        · exact SessionTraffic.trans (SessionTraffic.trans ⟨_, s.unacked, s.tx, s.ports, rfl⟩ (sendNow_traffic sid _ _)) (ih _)
        · exact SessionTraffic.refl s
      · exact SessionTraffic.refl s
    · exact SessionTraffic.refl s

theorem evtPump_traffic (sid : Nat) (s : State) : SessionTraffic s (evtPump sid s) := by
  unfold evtPump
  split
  · split
    · exact SessionTraffic.refl s
    · apply forEach_keeps (SessionTraffic s)
      · intro x t h
        exact h.trans (sendSession_traffic _ _ _)
      · exact ⟨_, s.unacked, s.tx, s.ports, rfl⟩
  · exact SessionTraffic.refl s

theorem evtPumpAll_traffic (s : State) : SessionTraffic s (evtPumpAll s) :=
  forEach_keeps (SessionTraffic s) evtPump (fun x _ h => h.trans (evtPump_traffic x _)) _ s (SessionTraffic.refl s)

/-! ## Commands -/

theorem onCmd_frame (id : Nat) (f : Cmd → Cmd) (s : State) : ∃ c, onCmd id f s = { s with cmds := c } := by
  unfold onCmd
  split
  · exact ⟨_, rfl⟩
  · exact ⟨s.cmds, rfl⟩

theorem cutReplay_frame (id x : Nat) (s : State) : ∃ l, cutReplay id x s = { s with log := l } := by
  unfold cutReplay noteReplay
  repeat' split
  all_goals first | exact ⟨s.log, rfl⟩ | exact note_frame _ _ _ _ _ _ _ _

/-- Work that is dropped leaves the clusters and its writes; a re-execution that is cut off is reported (R124, R348). -/
theorem dropWork_frame (id : Nat) (ab : Bool) (s : State) :
    ∃ l cl w, dropWork id ab s = { s with log := l, clusters := cl, writes := w } := by
  have key : ∃ l, (if ab then forEach (upTo 144) (cutReplay id) s else s) = { s with log := l } := by
    split
    · refine forEach_keeps (fun t => ∃ l, t = { s with log := l }) _ ?_ _ _ ⟨s.log, rfl⟩
      rintro x t ⟨l, rfl⟩
      obtain ⟨l2, h⟩ := cutReplay_frame id x { s with log := l }
      exact ⟨l2, h⟩
    · exact ⟨s.log, rfl⟩
  obtain ⟨l, h⟩ := key
  unfold dropWork
  simp only [h]
  exact ⟨l, _, _, rfl⟩

/-- What the end of a command can change: the command, its work in the clusters and its writes, and what it reports. -/
theorem endCommand_frame (id : Nat) (f : Final) (c a : Nat) (m : Option Nat) (s : State) :
    ∃ n l cs cl w ss us xs ps, endCommand id f c a m s =
      { s with free := n, log := l, cmds := cs, clusters := cl, writes := w, sessions := ss, unacked := us, tx := xs, ports := ps } := by
  unfold endCommand
  split
  · exact ⟨s.free, s.log, s.cmds, s.clusters, s.writes, s.sessions, s.unacked, s.tx, s.ports, rfl⟩
  · split
    · exact ⟨s.free, s.log, s.cmds, s.clusters, s.writes, s.sessions, s.unacked, s.tx, s.ports, rfl⟩
    · dsimp only [draw]
      obtain ⟨l, cl, w, hd⟩ := dropWork_frame id (f != .completed) { s with free := s.free + 1 }
      rw [hd]
      refine ⟨s.free + 1, l, ?_⟩
      obtain ⟨ss, us, xs, ps, h⟩ := sendStatus_traffic id f.code c a (onCmd id _ { s with free := s.free + 1, log := l, clusters := cl, writes := w })
      rw [h]
      obtain ⟨cs, h2⟩ := onCmd_frame id _ { s with free := s.free + 1, log := l, clusters := cl, writes := w }
      rw [h2]
      exact ⟨cs, cl, w, ss, us, xs, ps, rfl⟩

/-! ## Memory -/

theorem putBytes_wf (a : Nat) (bs : List Byte) (s : State) (h : Memory.wf s.dev = true) :
    Memory.wf (putBytes a bs s).dev = true := Memory.wf_writeBytes a bs h

theorem wipePage_wf (g : Nat) (s : State) (h : Memory.wf s.dev = true) : Memory.wf (wipePage g s).dev = true :=
  Memory.wf_clearRange _ _ h

theorem hubWrite_wf (a : Nat) (bs : List Byte) (s : State) (h : Memory.wf s.dev = true) :
    Memory.wf (hubWrite a bs s).dev = true := by
  unfold hubWrite
  split
  · exact h
  · exact putBytes_wf _ _ _ h

theorem afterReset_wf (c : Nat) (s : State) (h : Memory.wf s.dev = true) : Memory.wf (s.afterReset c).dev = true :=
  Memory.wf_keptBytes _ h

theorem Cluster.putTs_wf (a : Nat) (bs : List Byte) (c : Cluster) (h : Memory.wf c.ts = true) :
    Memory.wf (c.putTs a bs).ts = true := Memory.wf_writeBytes a bs h

/-- A byte outside the written ones reads as before. -/
theorem putBytes_outside (a b : Nat) (bs : List Byte) (s : State) (h : b < a ∨ a + bs.length ≤ b) :
    readAt 0 (putBytes a bs s).dev b = readAt 0 s.dev b := readAt_writeBytes_outside s.dev a b bs h

/-- A written byte reads back. -/
theorem putBytes_inside (a i : Nat) (bs : List Byte) (s : State) (hs : Memory.wf s.dev = true) (h : i < bs.length) :
    readAt 0 (putBytes a bs s).dev (a + i) = bs.getD i 0 := readAt_writeBytes_inside hs a i bs h

theorem poisonUnit_frame (u : Nat) (s : State) : ∃ p, poisonUnit u s = { s with poison := p } := by
  unfold poisonUnit
  split
  · exact ⟨s.poison, rfl⟩
  · exact ⟨_, rfl⟩

/-- A run of updates each of which changes nothing changes nothing. -/
theorem forEach_same {α : Type} (f : α → State → State) (xs : List α) (s : State) (h : ∀ x ∈ xs, f x s = s) :
    forEach xs f s = s := by
  unfold forEach
  induction xs with
  | nil => rfl
  | cons x xs ih =>
    rw [List.foldl_cons, h x (by simp)]
    exact ih fun y hy => h y (by simp [hy])

/-- With no instance, verdict or slot waiting for a captured page, nothing goes on when one is let go (R368, R369). -/
theorem retryHeld_none (s : State) (hg : ∀ g, g < 16 → ∀ i ∈ (s.group g).insts, i.ended.isSome = true)
    (hs : ∀ n, n < 16 → (s.slot n).late = none ∧ (s.slot n).enabling = none) : retryHeld s = s := by
  have hu : ∀ g ∈ upTo 16, g < 16 := by decide
  unfold retryHeld
  dsimp only
  rw [forEach_same _ (upTo 16) s (by
    intro g h
    have : (s.group g).insts.filter (fun i => i.ended.isNone) = [] := by
      rw [List.filter_eq_nil_iff]
      intro i hi
      have := hg g (hu g h) i hi
      cases hx : i.ended <;> simp_all
    rw [this]
    rfl)]
  apply forEach_same
  intro n h
  obtain ⟨h1, h2⟩ := hs n (hu n h)
  simp only [retryVerdict, h1, h2]

/-- A checkpoint that ends in an abort, with nothing waiting for it, is all that changes (R370). -/
theorem ckpAbort_frame (c so : Nat) (s : State)
    (hg : ckpBusy s.ckp.phase = true → ∀ g, g < 16 → ∀ i ∈ (s.group g).insts, i.ended.isSome = true)
    (hs : ckpBusy s.ckp.phase = true → ∀ n, n < 16 → (s.slot n).late = none ∧ (s.slot n).enabling = none) :
    ∃ l k, ckpAbort c so s = { s with log := l, ckp := k } := by
  unfold ckpAbort
  split
  · exact ⟨s.log, s.ckp, rfl⟩
  · rename_i hb
    have hb : ckpBusy s.ckp.phase = true := by simpa using hb
    rw [retryHeld_none (onCkp _ s) (hg hb) (hs hb)]
    obtain ⟨l, h⟩ := note_frame 0x0611 1 s.tsc.now so (s.trnJob (bits (s.reg 0xB0100) 0 4)) 0 c
      (onCkp (fun k => { k with phase := .aborted, cause := c, entries := [], pages := [], copied := [], stream := [] }) s)
    exact ⟨l, _, h⟩

/-- A poisoned unit is recorded, reported and counted, and may end a checkpoint; with nothing waiting for the checkpoint
nothing else changes. -/
theorem poisonNote_frame (u so : Nat) (s : State)
    (hg : ckpBusy s.ckp.phase = true → ∀ g, g < 16 → ∀ i ∈ (s.group g).insts, i.ended.isSome = true)
    (hs : ckpBusy s.ckp.phase = true → ∀ n, n < 16 → (s.slot n).late = none ∧ (s.slot n).enabling = none) :
    ∃ p l r k, poisonNote u so s = { s with poison := p, log := l, spr := r, ckp := k } := by
  unfold poisonNote
  dsimp only
  obtain ⟨p, hp⟩ := poisonUnit_frame u s
  rw [hp]
  obtain ⟨l, hl⟩ := note_frame 0x0605 2 s.tsc.now so 0 0 (u / 65536)
    (onSpr (fun r => { r with memUe := sat32 (r.memUe + 1) }) { s with poison := p })
  rw [show ({ s with poison := p } : State).tsc.now = s.tsc.now from rfl, hl]
  split
  · obtain ⟨l2, k, hk⟩ := ckpAbort_frame 3 srcCkp
      { onSpr (fun r => { r with memUe := sat32 (r.memUe + 1) }) { s with poison := p } with log := l } hg hs
    exact ⟨p, l2, _, k, hk⟩
  · exact ⟨p, l, _, s.ckp, rfl⟩

theorem leaveService_frame (c so : Nat) (s : State) :
    ∃ l r p, leaveService c so s = { s with log := l, spr := r, pwr := p } := by
  unfold leaveService
  split
  · exact ⟨s.log, s.spr, s.pwr, rfl⟩
  · refine Exists.elim (note_frame 0x060F 3 s.tsc.now so 0 0 c (onPwr (fun p => { p with pgood := if s.sec.boot == .fail then 2 else 3 }) (onSpr (fun r => { r with fatal := true }) s))) ?_
    intro l h
    exact ⟨l, _, _, h⟩

/-! ## Registers -/

/-- A register reads back what was stored. -/
theorem reg_setReg_same (a v : Nat) (s : State) (h : keysRise s.regs = true) : (setReg a v s).reg a = v % 2 ^ 32 := by
  unfold State.reg setReg
  rw [readAt_writeAt_same _ _ a h]
  simp [BitVec.toNat_ofNat]

/-- Another register reads as before. -/
theorem reg_setReg_ne {a b : Nat} (v : Nat) (s : State) (h : a ≠ b) : (setReg a v s).reg b = s.reg b := by
  unfold State.reg setReg
  dsimp only
  suffices g : ∀ d : Reg32, readAt d (writeAt (resetOf a) s.regs a (BitVec.ofNat 32 v)) b = readAt d s.regs b by rw [g]
  intro d
  have hab : (a == b) = false := by simpa using h
  generalize s.regs = m
  induction m with
  | nil => by_cases hx : BitVec.ofNat 32 v = resetOf a <;> simp [writeAt, hx, readAt, hab]
  | cons e m ih =>
    obtain ⟨k, w⟩ := e
    unfold writeAt
    split
    · split <;> simp [readAt, hab]
    · split
      · subst k
        split <;> simp [readAt, hab]
      · simp only [readAt, ih]

theorem keysRise_setReg (a v : Nat) (s : State) (h : keysRise s.regs = true) : keysRise (setReg a v s).regs = true :=
  keysRise_writeAt _ _ a h

end Sys2Proof.Machine
end

