-- ==== Sys2Proof/Laws/Messages.lean ====
section
/-! SUPPORT. What a message that is delivered does: `receiveHost` is the payload's act on the delivered state, and a register
message of one access is one access and its answer. -/

namespace Sys2Proof.Machine

theorem setAt_length {α : Type} (xs : List α) (n : Nat) (y : α) : (setAt xs n y).length = xs.length := by
  induction xs generalizing n with
  | nil => simp [setAt]
  | cons x xs ih => cases n <;> simp [setAt, ih]

theorem getD_setAt {α : Type} (xs : List α) (n m : Nat) (y d : α) :
    (setAt xs n y).getD m d = if n = m ∧ n < xs.length then y else xs.getD m d := by
  induction xs generalizing n m with
  | nil => simp [setAt]
  | cons x xs ih =>
    cases n <;> cases m <;> simp [setAt]
    rename_i a b
    have := ih a b
    simp only [List.getD_eq_getElem?_getD] at this
    simpa using this

theorem port_onPort (s : State) (n m : Nat) (f : Port → Port) :
    (onPort n f s).port m = if n = m ∧ n < s.ports.length then f (s.port n) else s.port m := by
  simp only [onPort, State.port]
  exact getD_setAt _ _ _ _ _

theorem find_updateWhere {α : Type} (p : α → Bool) (f : α → α) (xs : List α) (hf : ∀ x, p x = true → p (f x) = true) :
    (updateWhere p f xs).find? p = (xs.find? p).map f := by
  induction xs with
  | nil => rfl
  | cons x xs ih =>
    simp only [updateWhere, List.map_cons] at ih ⊢
    by_cases h : p x = true
    · simp [h, hf x h]
    · simp [h, ih]

theorem session_onSession (sid : Nat) (f : Session → Session) (s : State) (hf : ∀ x, (f x).sid = x.sid) :
    (onSession sid f s).session sid = (s.session sid).map f := by
  unfold State.session onSession
  exact find_updateWhere _ _ _ (by intro x hx; simpa [hf] using hx)

theorem session_emit (p : Option Nat) (d : Dest) (q : Option Nat) (r : Bool) (b : Out) (s : State) (sid : Nat) :
    (emit p d q r b s).session sid = s.session sid := by
  cases p <;> rfl

theorem session_sendAck (sid n : Nat) (s : State) (k : Nat) :
    (sendAck (.session sid) n s).session k = s.session k := by
  unfold sendAck transmit
  dsimp only
  split <;> simp [session_emit]

theorem now_emit (p : Option Nat) (d : Dest) (q : Option Nat) (r : Bool) (b : Out) (s : State) :
    (emit p d q r b s).tsc = s.tsc := by
  cases p <;> rfl

theorem now_sendAck (sid n : Nat) (s : State) : (sendAck (.session sid) n s).tsc = s.tsc := by
  unfold sendAck transmit
  dsimp only
  split <;> simp [now_emit]

theorem spr_sendAck (sid n : Nat) (s : State) : (sendAck (.session sid) n s).spr = s.spr := by
  unfold sendAck transmit
  dsimp only
  split
  · rename_i x _
    cases s.sessionPort x (.ack n) <;> rfl
  · rfl

theorem inService_heard (h : Hdr) (s : State) (hs : s.ports.length = 8) :
    (onPort h.port (fun q => { q with rx := q.rx + 1 }) (tick h.t s)).inService h.port = s.inService h.port := by
  have : (h.port : Nat) < s.ports.length := by omega
  simp only [State.inService, port_onPort]
  simp [this, tick, onTsc, State.port, State.reg, onPort]

/-- The ACK of a message is considered, then a message that is next is delivered. -/
theorem sequence_next (h : Hdr) (act : Act) (m : Msg) (s : State) (c : Chan)
    (hc : (heard h s).chan (.session h.chan.toNat) = c) (hn : c.rxNext = h.seq.toNat) (hr : c.rxHeld = []) :
    sequence (.session h.chan.toNat) act h.port h.src h.seq.toNat (h.ack.map BitVec.toNat) m
        (onPort h.port (fun q => { q with rx := q.rx + 1 }) (tick h.t s))
      = deliver (.session h.chan.toNat) act h.port h.src h.seq.toNat m (heard h s) := by
  have key : ∀ (s1 : State) (a : Option Nat), (match a with
        | some n => ackChannel (.session h.chan.toNat) n s1
        | none => s1) = heard h s →
      sequence (.session h.chan.toNat) act h.port h.src h.seq.toNat a m s1
        = deliver (.session h.chan.toNat) act h.port h.src h.seq.toNat m (heard h s) := by
    intro s1 a e
    unfold sequence
    cases a <;> (dsimp only at e ⊢; rw [e, hc, hn, hr]; rw [if_pos (by simp)]; rfl)
  apply key
  unfold heard
  cases h.ack <;> rfl

/-- The next message of an open session acts on the delivered state. -/
theorem receiveHost_ready {h : Hdr} {x : Session} {s : State} (r : HostReady h x s) (m : Msg)
    (hm : ∀ n, msgMalformed n m = false) (hj : x.cls ≠ 2 ∨ msgForJob m = true) :
    receiveHost h m s = actAllowed (deliveredSession h x s) h.port h.seq.toNat m (delivered h s) := by
  have hp : s.ports.length = 8 := by have := r.shaped; simp [State.shaped] at this; omega
  unfold receiveHost arrive
  simp only [r.link, Bool.not_true, Bool.false_eq_true, if_false, inService_heard h s hp, r.serves, if_true]
  obtain ⟨hb1, hb2⟩ := r.begun
  have hs1 : (onPort h.port (fun q => { q with rx := q.rx + 1 }) (tick h.t s)).session h.chan.toNat = s.session h.chan.toNat := rfl
  rw [hs1]
  cases hy : s.session h.chan.toNat with
  | none => exact absurd hy hb1
  | some y =>
    rw [hy] at hb2
    have hyo : y.phase = .open_ := by simpa using hb2
    have hmine : State.forMe (onPort h.port (fun q => { q with rx := q.rx + 1 }) (tick h.t s)) (.session h.chan.toNat)
        h.dst.toNat = true := r.mine
    simp only [hyo, hm, hmine, Bool.not_true, Bool.or_false]
    rw [if_neg (by decide)]
    have hc : (heard h s).chan (.session h.chan.toNat) = x.chan := by
      simp [State.chan, r.known]
    rw [sequence_next h _ m s x.chan hc r.next r.inOrder]
    unfold deliver actSession
    have hsess : (delivered h s).session h.chan.toNat = some (deliveredSession h x s) := by
      unfold delivered
      rw [session_sendAck, session_onSession _ _ _ (by intro x; rfl)]
      simp only [onChan]
      rw [session_onSession _ _ _ (by intro x; rfl), r.known]
      simp [deliveredSession, r.opened, onSession]
    have hfat : (delivered h s).spr.fatal = false := by
      have : (delivered h s).spr = (heard h s).spr := by
        unfold delivered
        rw [spr_sendAck]
        rfl
      rw [this, r.notFatal]
    change (match (delivered h s).session h.chan.toNat with
      | none => delivered h s
      | some x => if ((delivered h s).spr.fatal && !msgForFatal m || (x.cls == 2 && !msgForJob m)) = true then
          refuseMsg h.chan.toNat h.seq.toNat m (delivered h s) else actAllowed x h.port h.seq.toNat m (delivered h s)) = _
    rw [hsess]
    simp only [hfat, Bool.false_and, Bool.false_or]
    have hcls : (deliveredSession h x s).cls = x.cls := rfl
    rw [hcls, if_neg]
    rcases hj with hj | hj <;> simp [hj]

theorem fields_sendAck (sid n : Nat) (s : State) :
    (sendAck (.session sid) n s).fwDown = s.fwDown ∧ (sendAck (.session sid) n s).fwHeld = s.fwHeld
      ∧ (sendAck (.session sid) n s).pwr = s.pwr ∧ (sendAck (.session sid) n s).sec = s.sec := by
  unfold sendAck transmit
  dsimp only
  split
  · rename_i x _
    cases s.sessionPort x (.ack n) <;> exact ⟨rfl, rfl, rfl, rfl⟩
  · exact ⟨rfl, rfl, rfl, rfl⟩

theorem fields_delivered (h : Hdr) (s : State) :
    (delivered h s).fwDown = (heard h s).fwDown ∧ (delivered h s).fwHeld = (heard h s).fwHeld
      ∧ (delivered h s).pwr = (heard h s).pwr ∧ (delivered h s).sec = (heard h s).sec := by
  unfold delivered
  dsimp only
  obtain ⟨a, b, c, d⟩ := fields_sendAck h.chan.toNat ((h.seq.toNat + 1) % 2 ^ 32)
    (onSession h.chan.toNat (fun x => { x with
      src := h.src, port := h.port
      since := if x.phase == .open_
        then (onChan (.session h.chan.toNat) (fun c => { c with rxNext := (h.seq.toNat + 1) % 2 ^ 32 }) (heard h s)).tsc.now
        else x.since })
      (onChan (.session h.chan.toNat) (fun c => { c with rxNext := (h.seq.toNat + 1) % 2 ^ 32 }) (heard h s)))
  exact ⟨by rw [a]; rfl, by rw [b]; rfl, by rw [c]; rfl, by rw [d]; rfl⟩

/-- With no register message held, a write settles nothing. -/
theorem settleHeld_nil (was s : State) (hs : s.fwHeld = []) : settleHeld was s = s := by
  unfold settleHeld
  rw [hs]
  simp only [settleMessages]
  cases s
  simp only at hs
  subst hs
  rfl

/-- A register write that is a message of one access: the access and its answer (R331). -/
theorem writeOne_ready {h : Hdr} {x : Session} {s t : State} {addr v st : Nat} {l : Loc} (r : HostReady h x s)
    (ha : addr < 2 ^ 64) (hv : v < 2 ^ 32) (hl : (delivered h s).locate addr = some l)
    (hw : writeLoc ((deliveredSession h x s).writer h.port) l v (accessNow l (delivered h s)) (delivered h s) = (st, t))
    (hp : t.pwr.state ≠ .off) (hz : t.sec.resetAt ≠ some 0) (hn : t.tsc = (delivered h s).tsc)
    (hb : t.busAt = (delivered h s).busAt) (hf : t.fwHeld = []) :
    writeOne h addr v s = .next (answered h x st t l.tree) := by
  obtain ⟨f1, f2, f3, -⟩ := fields_delivered h s
  unfold writeOne done
  rw [receiveHost_ready r _ (by intro n; rfl) (Or.inr rfl)]
  simp only [actAllowed, onRegs, f1, r.firmware.1, Option.isSome_none, Bool.false_eq_true, if_false]
  have h1 : (BitVec.ofNat 64 addr).toNat = addr := by simp [BitVec.toNat_ofNat]; omega
  have h2 : (BitVec.ofNat 32 v).toNat = v := by simp [BitVec.toNat_ofNat]; omega
  have hd : (delivered h s).pwr.state ≠ .off := by rw [f3]; exact r.powered
  unfold performRegs
  simp only [List.map_cons, List.map_nil, h1, h2, hl, accesses]
  have hd' : ((delivered h s).pwr.state == .off) = false := by simpa using hd
  have hp' : (t.pwr.state == .off) = false := by simpa using hp
  simp only [hd', Bool.false_eq_true, if_false]
  have hw' : writeLoc ((deliveredSession h x s).writer h.port) l v
      (((Bus.start (delivered h s)).reach ((some l).bind Loc.tree)).now (delivered h s).tsc.now) (delivered h s) = (st, t) := hw
  unfold access
  simp only [if_true, hw', settleHeld_nil _ t hf]
  simp only [hp', Bool.false_eq_true, if_false]
  have hz' : (t.sec.resetAt == some 0) = false := by simpa using hz
  have hs : ((deliveredSession h x s).writer h.port).sid = x.sid := rfl
  have hg : Bus.start t = Bus.start (delivered h s) := by unfold Bus.start; rw [hn, hb]
  simp only [regResponse, hz', hs, answered, accessed, hg, hn]
  rfl

end Sys2Proof.Machine
end

