-- ==== Sys2Proof/Laws/PerInstr.lean ====
section
/-! SUPPORT. Laws stated per command: the word of every instruction fits 64 bits (R188). -/

namespace Sys2Proof.Laws

open Sys2Proof

theorem FormR.word_lt (f : FormR) : f.word < 2 ^ 56 := by
  have := f.d.isLt; have := f.a.isLt; have := f.b.isLt; have := f.rsv.isLt
  unfold FormR.word threeRegs; omega

theorem FormI.word_lt (f : FormI) : f.word < 2 ^ 56 := by
  have := f.d.isLt; have := f.a.isLt; have := f.imm.isLt
  unfold FormI.word; omega

theorem FormJ.word_lt (f : FormJ) : f.word < 2 ^ 56 := by
  have := f.rsv.isLt; have := f.a.isLt; have := f.b.isLt; have := f.off.isLt
  unfold FormJ.word; omega

theorem FormMxa.word_lt (f : FormMxa) : f.word < 2 ^ 56 := by
  have := f.w.isLt; have := f.a.isLt; have := f.b.isLt; have := f.spill.isLt; have := f.mask.isLt; have := f.prod.isLt
  have := f.rsv.isLt
  unfold FormMxa.word threeRegs; omega

theorem FormLch.word_lt (f : FormLch) : f.word < 2 ^ 56 := by
  have := f.w.isLt; have := f.a.isLt; have := f.b.isLt; have := f.va.isLt; have := f.vb.isLt; have := f.k0.isLt
  have := f.k1.isLt; have := f.sd.isLt; have := f.x.isLt; have := f.rsv.isLt
  unfold FormLch.word threeRegs; omega

theorem FormCmb.word_lt (f : FormCmb) : f.word < 2 ^ 56 := by
  have := f.w.isLt; have := f.a.isLt; have := f.b.isLt; have := f.spill.isLt; have := f.mask.isLt; have := f.rsv.isLt
  unfold FormCmb.word threeRegs; omega

theorem opWord_lt {op w : Nat} (ho : op < 256) (h : w < 2 ^ 56) : opWord op w < 2 ^ 64 := by
  unfold opWord; omega

/-! ## `WordFits` -/

/-- The word of an instruction fits 64 bits; other commands have no word (R188). -/
def WordFits.Statement (i : Instr) : Prop := ∀ (p : At) (w : Nat), wordOfInstr i = some (p, w) → w < 2 ^ 64

theorem WordFits.of_word {i : Instr} {p : At} {op w : Nat} (h : wordOfInstr i = some (p, opWord op w)) (ho : op < 256)
    (hw : w < 2 ^ 56) : WordFits.Statement i := by
  intro q v e
  rw [h] at e
  cases e
  exact opWord_lt ho hw

theorem WordFits.of_none {i : Instr} (h : wordOfInstr i = none) : WordFits.Statement i := by
  intro q v e
  rw [h] at e
  cases e

theorem WordFits.stitchBoundary (slip : Nat) : WordFits.Statement (.stitchBoundary slip) :=
  WordFits.of_none rfl
theorem WordFits.adminReserveBegin  : WordFits.Statement (.adminReserveBegin) :=
  WordFits.of_none rfl
theorem WordFits.cmdLate  : WordFits.Statement (.cmdLate) :=
  WordFits.of_none rfl
theorem WordFits.gridOriginReached  : WordFits.Statement (.gridOriginReached) :=
  WordFits.of_none rfl
theorem WordFits.ptpMessage (t : Nat) (port : Fin 8) (m : PtpFrame) : WordFits.Statement (.ptpMessage t port m) :=
  WordFits.of_none rfl
theorem WordFits.ppsInPulse (t : Nat) : WordFits.Statement (.ppsInPulse t) :=
  WordFits.of_none rfl
theorem WordFits.todFrame (t : Nat) (frame : List Byte) : WordFits.Statement (.todFrame t frame) :=
  WordFits.of_none rfl
theorem WordFits.evtSequence  : WordFits.Statement (.evtSequence) :=
  WordFits.of_none rfl
theorem WordFits.cmd (h : Hdr) (flags : Byte) (descs : List (List Byte)) : WordFits.Statement (.cmd h flags descs) :=
  WordFits.of_none rfl
theorem WordFits.abort (h : Hdr) (tag : Reg32) : WordFits.Statement (.abort h tag) :=
  WordFits.of_none rfl
theorem WordFits.cmdBegin (p : At) : WordFits.Statement (.cmdBegin p) :=
  WordFits.of_none rfl
theorem WordFits.commandComplete (t : Nat) (id : Nat) (measured : Reg32) : WordFits.Statement (.commandComplete t id measured) :=
  WordFits.of_none rfl
theorem WordFits.releaseGatePass (x : Fin 144) : WordFits.Statement (.releaseGatePass x) :=
  WordFits.of_none rfl
theorem WordFits.li (p : At) (f : FormI) : WordFits.Statement (.li p f) :=
  WordFits.of_word rfl (by decide) (FormI.word_lt f)
theorem WordFits.add (p : At) (f : FormR) : WordFits.Statement (.add p f) :=
  WordFits.of_word rfl (by decide) (FormR.word_lt f)
theorem WordFits.addi (p : At) (f : FormI) : WordFits.Statement (.addi p f) :=
  WordFits.of_word rfl (by decide) (FormI.word_lt f)
theorem WordFits.sub (p : At) (f : FormR) : WordFits.Statement (.sub p f) :=
  WordFits.of_word rfl (by decide) (FormR.word_lt f)
theorem WordFits.mul (p : At) (f : FormR) : WordFits.Statement (.mul p f) :=
  WordFits.of_word rfl (by decide) (FormR.word_lt f)
theorem WordFits.and (p : At) (f : FormR) : WordFits.Statement (.and p f) :=
  WordFits.of_word rfl (by decide) (FormR.word_lt f)
theorem WordFits.or (p : At) (f : FormR) : WordFits.Statement (.or p f) :=
  WordFits.of_word rfl (by decide) (FormR.word_lt f)
theorem WordFits.xor (p : At) (f : FormR) : WordFits.Statement (.xor p f) :=
  WordFits.of_word rfl (by decide) (FormR.word_lt f)
theorem WordFits.shl (p : At) (f : FormR) : WordFits.Statement (.shl p f) :=
  WordFits.of_word rfl (by decide) (FormR.word_lt f)
theorem WordFits.shr (p : At) (f : FormR) : WordFits.Statement (.shr p f) :=
  WordFits.of_word rfl (by decide) (FormR.word_lt f)
theorem WordFits.sar (p : At) (f : FormR) : WordFits.Statement (.sar p f) :=
  WordFits.of_word rfl (by decide) (FormR.word_lt f)
theorem WordFits.ldt (p : At) (f : FormI) : WordFits.Statement (.ldt p f) :=
  WordFits.of_word rfl (by decide) (FormI.word_lt f)
theorem WordFits.stt (p : At) (f : FormI) : WordFits.Statement (.stt p f) :=
  WordFits.of_word rfl (by decide) (FormI.word_lt f)
theorem WordFits.ldd (p : At) (f : FormI) : WordFits.Statement (.ldd p f) :=
  WordFits.of_word rfl (by decide) (FormI.word_lt f)
theorem WordFits.std (p : At) (f : FormI) : WordFits.Statement (.std p f) :=
  WordFits.of_word rfl (by decide) (FormI.word_lt f)
theorem WordFits.beq (p : At) (f : FormJ) : WordFits.Statement (.beq p f) :=
  WordFits.of_word rfl (by decide) (FormJ.word_lt f)
theorem WordFits.bne (p : At) (f : FormJ) : WordFits.Statement (.bne p f) :=
  WordFits.of_word rfl (by decide) (FormJ.word_lt f)
theorem WordFits.blt (p : At) (f : FormJ) : WordFits.Statement (.blt p f) :=
  WordFits.of_word rfl (by decide) (FormJ.word_lt f)
theorem WordFits.bltu (p : At) (f : FormJ) : WordFits.Statement (.bltu p f) :=
  WordFits.of_word rfl (by decide) (FormJ.word_lt f)
theorem WordFits.jmp (p : At) (f : FormJ) : WordFits.Statement (.jmp p f) :=
  WordFits.of_word rfl (by decide) (FormJ.word_lt f)
theorem WordFits.setvl (p : At) (f : FormR) : WordFits.Statement (.setvl p f) :=
  WordFits.of_word rfl (by decide) (FormR.word_lt f)
theorem WordFits.mxa (p : At) (f : FormMxa) : WordFits.Statement (.mxa p f) :=
  WordFits.of_word rfl (by decide) (FormMxa.word_lt f)
theorem WordFits.arrayOpStream (t : Nat) (x : Fin 144) (cycles : Nat) (fence : Nat) : WordFits.Statement (.arrayOpStream t x cycles fence) :=
  WordFits.of_none rfl
theorem WordFits.tileEmit (t : Nat) (x : Fin 144) : WordFits.Statement (.tileEmit t x) :=
  WordFits.of_none rfl
theorem WordFits.lch (p : At) (f : FormLch) : WordFits.Statement (.lch p f) :=
  WordFits.of_word rfl (by decide) (FormLch.word_lt f)
theorem WordFits.chainPass (t : Nat) (x : Fin 144) : WordFits.Statement (.chainPass t x) :=
  WordFits.of_none rfl
theorem WordFits.cmb (p : At) (f : FormCmb) : WordFits.Statement (.cmb p f) :=
  WordFits.of_word rfl (by decide) (FormCmb.word_lt f)
theorem WordFits.movin (p : At) (f : FormR) : WordFits.Statement (.movin p f) :=
  WordFits.of_word rfl (by decide) (FormR.word_lt f)
theorem WordFits.movout (p : At) (f : FormR) : WordFits.Statement (.movout p f) :=
  WordFits.of_word rfl (by decide) (FormR.word_lt f)
theorem WordFits.pfset (p : At) (f : FormI) : WordFits.Statement (.pfset p f) :=
  WordFits.of_word rfl (by decide) (FormI.word_lt f)
theorem WordFits.prefetchTileArrive (t : Nat) (x : Fin 144) (pf : Fin 4) : WordFits.Statement (.prefetchTileArrive t x pf) :=
  WordFits.of_none rfl
theorem WordFits.pfwait (p : At) (f : FormI) : WordFits.Statement (.pfwait p f) :=
  WordFits.of_word rfl (by decide) (FormI.word_lt f)
theorem WordFits.pfrel (p : At) (f : FormI) : WordFits.Statement (.pfrel p f) :=
  WordFits.of_word rfl (by decide) (FormI.word_lt f)
theorem WordFits.bwait (p : At) (f : FormR) : WordFits.Statement (.bwait p f) :=
  WordFits.of_word rfl (by decide) (FormR.word_lt f)
theorem WordFits.buckleWaitSatisfied (p : At) : WordFits.Statement (.buckleWaitSatisfied p) :=
  WordFits.of_none rfl
theorem WordFits.bsig (p : At) (f : FormR) : WordFits.Statement (.bsig p f) :=
  WordFits.of_word rfl (by decide) (FormR.word_lt f)
theorem WordFits.fence (p : At) (f : FormR) : WordFits.Statement (.fence p f) :=
  WordFits.of_word rfl (by decide) (FormR.word_lt f)
theorem WordFits.endCmd (p : At) (f : FormR) : WordFits.Statement (.endCmd p f) :=
  WordFits.of_word rfl (by decide) (FormR.word_lt f)
theorem WordFits.triggerQueuedStart (t : Nat) (g : Fin 16) (entry : BitVec 12) : WordFits.Statement (.triggerQueuedStart t g entry) :=
  WordFits.of_none rfl
theorem WordFits.redStart (h : MHdr) (r : RedStart) : WordFits.Statement (.redStart h r) :=
  WordFits.of_none rfl
theorem WordFits.redData (h : MHdr) (r : RedData) : WordFits.Statement (.redData h r) :=
  WordFits.of_none rfl
theorem WordFits.redFinal (h : MHdr) (r : RedFinal) : WordFits.Statement (.redFinal h r) :=
  WordFits.of_none rfl
theorem WordFits.redFail (h : MHdr) (n : InstName) : WordFits.Statement (.redFail h n) :=
  WordFits.of_none rfl
theorem WordFits.operandTimeout (n : InstName) (level : Nat) : WordFits.Statement (.operandTimeout n level) :=
  WordFits.of_none rfl
theorem WordFits.instanceFailTimeout (n : InstName) : WordFits.Statement (.instanceFailTimeout n) :=
  WordFits.of_none rfl
theorem WordFits.voteTimeout (slot : Fin 16) (level : Nat) : WordFits.Statement (.voteTimeout slot level) :=
  WordFits.of_none rfl
theorem WordFits.grtVerdictLost (slot : Fin 16) : WordFits.Statement (.grtVerdictLost slot) :=
  WordFits.of_none rfl
theorem WordFits.stepVoting (t : Nat) (slot : Fin 16) : WordFits.Statement (.stepVoting t slot) :=
  WordFits.of_none rfl
theorem WordFits.stepRetired (t : Nat) (slot : Fin 16) : WordFits.Statement (.stepRetired t slot) :=
  WordFits.of_none rfl
theorem WordFits.trnClose (h : Hdr) (slot : Fin 16) (step : Reg32) : WordFits.Statement (.trnClose h slot step) :=
  WordFits.of_none rfl
theorem WordFits.trnSlotEnable (h : Hdr) (slot : Fin 16) (job : BitVec 16) : WordFits.Statement (.trnSlotEnable h slot job) :=
  WordFits.of_none rfl
theorem WordFits.trnSlotDisable (h : Hdr) (slot : Fin 16) (job : BitVec 16) : WordFits.Statement (.trnSlotDisable h slot job) :=
  WordFits.of_none rfl
theorem WordFits.resume (h : Hdr) (slot : Fin 16) : WordFits.Statement (.resume h slot) :=
  WordFits.of_none rfl
theorem WordFits.trnScaleWrite (h : Hdr) (slot : Fin 16) (v : Reg32) : WordFits.Statement (.trnScaleWrite h slot v) :=
  WordFits.of_none rfl
theorem WordFits.grtGroupEnable (h : Hdr) (g : Fin 16) (v : Reg32) : WordFits.Statement (.grtGroupEnable h g v) :=
  WordFits.of_none rfl
theorem WordFits.grtGrpVote (h : Hdr) (g : Fin 16) (v : Reg32) : WordFits.Statement (.grtGrpVote h g v) :=
  WordFits.of_none rfl
theorem WordFits.pmcBklCountWrite (h : Hdr) (n : BitVec 12) (v : Reg32) : WordFits.Statement (.pmcBklCountWrite h n v) :=
  WordFits.of_none rfl
theorem WordFits.nop (h : Hdr) : WordFits.Statement (.nop h) :=
  WordFits.of_none rfl
theorem WordFits.map (h : Hdr) : WordFits.Statement (.map h) :=
  WordFits.of_none rfl
theorem WordFits.unmap (h : Hdr) : WordFits.Statement (.unmap h) :=
  WordFits.of_none rfl
theorem WordFits.hint (h : Hdr) : WordFits.Statement (.hint h) :=
  WordFits.of_none rfl
theorem WordFits.move (h : Hdr) : WordFits.Statement (.move h) :=
  WordFits.of_none rfl
theorem WordFits.query (h : Hdr) : WordFits.Statement (.query h) :=
  WordFits.of_none rfl
theorem WordFits.migrationSwitch (t : Nat) (page : Nat) (place : PageAt) : WordFits.Statement (.migrationSwitch t page place) :=
  WordFits.of_none rfl
theorem WordFits.pageArrival (t : Nat) (page : Nat) (place : PageAt) : WordFits.Statement (.pageArrival t page place) :=
  WordFits.of_none rfl
theorem WordFits.scheduleDeadline (slot : Fin 16) (entry : Nat) : WordFits.Statement (.scheduleDeadline slot entry) :=
  WordFits.of_none rfl
theorem WordFits.ftlRelocation (t : Nat) (block : BitVec 21) (failed : Bool) : WordFits.Statement (.ftlRelocation t block failed) :=
  WordFits.of_none rfl
theorem WordFits.retentionScan (t : Nat) (block : BitVec 21) (retry : Bool) (lastLevel : Bool) : WordFits.Statement (.retentionScan t block retry lastLevel) :=
  WordFits.of_none rfl
theorem WordFits.ftlCmdRelocate (h : Hdr) (block : BitVec 21) : WordFits.Statement (.ftlCmdRelocate h block) :=
  WordFits.of_none rfl
theorem WordFits.ftlCmdRetentionScan (h : Hdr) (block : BitVec 21) : WordFits.Statement (.ftlCmdRetentionScan h block) :=
  WordFits.of_none rfl
theorem WordFits.hello (t : Nat) (port : Fin 8) (src : Nat) (p : Hello) : WordFits.Statement (.hello t port src p) :=
  WordFits.of_none rfl
theorem WordFits.proof (h : Hdr) (p icv : List Byte) : WordFits.Statement (.proof h p icv) :=
  WordFits.of_none rfl
theorem WordFits.proofReservationExpire (sid : Nat) : WordFits.Statement (.proofReservationExpire sid) :=
  WordFits.of_none rfl
theorem WordFits.slotLockExpire (slot : Fin 8) : WordFits.Statement (.slotLockExpire slot) :=
  WordFits.of_none rfl
theorem WordFits.close (h : Hdr) : WordFits.Statement (.close h) :=
  WordFits.of_none rfl
theorem WordFits.sessionIdleTimeout (sid : Nat) : WordFits.Statement (.sessionIdleTimeout sid) :=
  WordFits.of_none rfl
theorem WordFits.lingerEnd (sid : Nat) : WordFits.Statement (.lingerEnd sid) :=
  WordFits.of_none rfl
theorem WordFits.edgCloseWrite (h : Hdr) (sid : BitVec 24) : WordFits.Statement (.edgCloseWrite h sid) :=
  WordFits.of_none rfl
theorem WordFits.ack (h : Hdr) (srcMod : BitVec 16) : WordFits.Statement (.ack h srcMod) :=
  WordFits.of_none rfl
theorem WordFits.retxTimer (chan : ChanRef) (seq : Reg32) : WordFits.Statement (.retxTimer chan seq) :=
  WordFits.of_none rfl
theorem WordFits.regRead (h : Hdr) (accs : List RegAccess) : WordFits.Statement (.regRead h accs) :=
  WordFits.of_none rfl
theorem WordFits.regWrite (h : Hdr) (accs : List RegAccess) : WordFits.Statement (.regWrite h accs) :=
  WordFits.of_none rfl
theorem WordFits.sthPeriodWrite (h : Hdr) (v : Reg32) : WordFits.Statement (.sthPeriodWrite h v) :=
  WordFits.of_none rfl
theorem WordFits.sthOriginWrite (h : Hdr) (v : Reg32) : WordFits.Statement (.sthOriginWrite h v) :=
  WordFits.of_none rfl
theorem WordFits.pgCtrlWrite (h : Hdr) (addr : Reg32) (en : Bool) (drain : Bool) : WordFits.Statement (.pgCtrlWrite h addr en drain) :=
  WordFits.of_none rfl
theorem WordFits.pgAbort (h : Hdr) (addr : Reg32) (en : Bool) (drain : Bool) : WordFits.Statement (.pgAbort h addr en drain) :=
  WordFits.of_none rfl
theorem WordFits.pgModeWrite (h : Hdr) (addr : Reg32) (v : Reg32) : WordFits.Statement (.pgModeWrite h addr v) :=
  WordFits.of_none rfl
theorem WordFits.drnCntClear (h : Hdr) (x : Fin 144) (v : Reg32) : WordFits.Statement (.drnCntClear h x v) :=
  WordFits.of_none rfl
theorem WordFits.lchCntClear (h : Hdr) (x : Fin 144) (v : Reg32) : WordFits.Statement (.lchCntClear h x v) :=
  WordFits.of_none rfl
theorem WordFits.mxaDebugWrite (h : Hdr) (x : Fin 144) (v : Reg32) : WordFits.Statement (.mxaDebugWrite h x v) :=
  WordFits.of_none rfl
theorem WordFits.sprSubst (h : Hdr) (logical : Byte) (tree : Fin 4) (index : BitVec 6) : WordFits.Statement (.sprSubst h logical tree index) :=
  WordFits.of_none rfl
theorem WordFits.peerReload (h : Hdr) (count : BitVec 16) : WordFits.Statement (.peerReload h count) :=
  WordFits.of_none rfl
theorem WordFits.retrain (h : Hdr) (port : Fin 8) : WordFits.Statement (.retrain h port) :=
  WordFits.of_none rfl
theorem WordFits.dataWrite (h : Hdr) (addr : Word64) (data : WriteBody) : WordFits.Statement (.dataWrite h addr data) :=
  WordFits.of_none rfl
theorem WordFits.dataRead (h : Hdr) (addr : Word64) (len : Reg32) : WordFits.Statement (.dataRead h addr len) :=
  WordFits.of_none rfl
theorem WordFits.eventSub (h : Hdr) (minSev : Byte) (flags : Byte) : WordFits.Statement (.eventSub h minSev flags) :=
  WordFits.of_none rfl
theorem WordFits.libBegin (h : Hdr) (addr : Word64) (count : Reg32) (hint : BitVec 16) : WordFits.Statement (.libBegin h addr count hint) :=
  WordFits.of_none rfl
theorem WordFits.libCommit (h : Hdr) (addr : Word64) : WordFits.Statement (.libCommit h addr) :=
  WordFits.of_none rfl
theorem WordFits.libAbort (h : Hdr) (addr : Word64) : WordFits.Statement (.libAbort h addr) :=
  WordFits.of_none rfl
theorem WordFits.lendMap (h : Hdr) (r : LendReq) : WordFits.Statement (.lendMap h r) :=
  WordFits.of_none rfl
theorem WordFits.lendOpen (h : MHdr) (r : LendReq) : WordFits.Statement (.lendOpen h r) :=
  WordFits.of_none rfl
theorem WordFits.lendAccept (h : MHdr) (status : Byte) : WordFits.Statement (.lendAccept h status) :=
  WordFits.of_none rfl
theorem WordFits.lendRead (h : MHdr) (laddr : Word64) (len : Reg32) (tag : Reg32) : WordFits.Statement (.lendRead h laddr len tag) :=
  WordFits.of_none rfl
theorem WordFits.lendData (h : MHdr) (tag : Reg32) (status : Byte) (data : List Byte) : WordFits.Statement (.lendData h tag status data) :=
  WordFits.of_none rfl
theorem WordFits.lendEnd (h : Hdr) (borrower : BitVec 16) : WordFits.Statement (.lendEnd h borrower) :=
  WordFits.of_none rfl
theorem WordFits.lendNotice (h : MHdr) : WordFits.Statement (.lendNotice h) :=
  WordFits.of_none rfl
theorem WordFits.lendClose (h : MHdr) : WordFits.Statement (.lendClose h) :=
  WordFits.of_none rfl
theorem WordFits.lendNoticeTimeout (index : Nat) : WordFits.Statement (.lendNoticeTimeout index) :=
  WordFits.of_none rfl
theorem WordFits.sbgLendLost (index : Fin 8) : WordFits.Statement (.sbgLendLost index) :=
  WordFits.of_none rfl
theorem WordFits.attestReq (t : Nat) (port : Fin 8) (src : Nat) (nonce : List Byte) : WordFits.Statement (.attestReq t port src nonce) :=
  WordFits.of_none rfl
theorem WordFits.arpRequest (t : Nat) (port : Fin 8) (src : Nat) (target : Reg32) : WordFits.Statement (.arpRequest t port src target) :=
  WordFits.of_none rfl
theorem WordFits.neighbourSolicitation (t : Nat) (port : Fin 8) (src : Nat) (target : BitVec 128) : WordFits.Statement (.neighbourSolicitation t port src target) :=
  WordFits.of_none rfl
theorem WordFits.echoRequest (t : Nat) (port : Fin 8) (src : Nat) (v6 : Bool) (data : List Byte) : WordFits.Statement (.echoRequest t port src v6 data) :=
  WordFits.of_none rfl
theorem WordFits.mkaFrame (t : Nat) (port : Fin 8) (secures : Bool) : WordFits.Statement (.mkaFrame t port secures) :=
  WordFits.of_none rfl
theorem WordFits.edgMacsecDown (t : Nat) (port : Fin 8) : WordFits.Statement (.edgMacsecDown t port) :=
  WordFits.of_none rfl
theorem WordFits.edgLinkUp (t : Nat) (port : Fin 8) (working : BitVec 4) (partner : BitVec 4) : WordFits.Statement (.edgLinkUp t port working partner) :=
  WordFits.of_none rfl
theorem WordFits.edgLinkDown (t : Nat) (port : Fin 8) (failed : BitVec 4) : WordFits.Statement (.edgLinkDown t port failed) :=
  WordFits.of_none rfl
theorem WordFits.clusterFault (t : Nat) (x : Fin 144) (code : Byte) : WordFits.Statement (.clusterFault t x code) :=
  WordFits.of_none rfl
theorem WordFits.sramCorrect (t : Nat) (where_ : SramAt) : WordFits.Statement (.sramCorrect t where_) :=
  WordFits.of_none rfl
theorem WordFits.hbmRowRepair (t : Nat) (stack : Fin 8) (pch : PchSeen) : WordFits.Statement (.hbmRowRepair t stack pch) :=
  WordFits.of_none rfl
theorem WordFits.hbmPchSpare (t : Nat) (stack : Fin 8) (pch : PchSeen) : WordFits.Statement (.hbmPchSpare t stack pch) :=
  WordFits.of_none rfl
theorem WordFits.ddrErase (t : Nat) (channel : Fin 16) (rank : Fin 2) (device : DeviceSeen) : WordFits.Statement (.ddrErase t channel rank device) :=
  WordFits.of_none rfl
theorem WordFits.sprMemUe (t : Nat) (unit : Nat) (source : BitVec 12) : WordFits.Statement (.sprMemUe t unit source) :=
  WordFits.of_none rfl
theorem WordFits.girthLaneFault (t : Nat) (port : Fin 8) : WordFits.Statement (.girthLaneFault t port) :=
  WordFits.of_none rfl
theorem WordFits.bridgeAdderFault (t : Nat) (bridge : Fin 2) : WordFits.Statement (.bridgeAdderFault t bridge) :=
  WordFits.of_none rfl
theorem WordFits.phaseShed (t : Nat) (rail : Fin 5) : WordFits.Statement (.phaseShed t rail) :=
  WordFits.of_none rfl
theorem WordFits.pllLoss (t : Nat) : WordFits.Statement (.pllLoss t) :=
  WordFits.of_none rfl
theorem WordFits.firmwareWatchdog (t : Nat) (cacheIntact : Bool) : WordFits.Statement (.firmwareWatchdog t cacheIntact) :=
  WordFits.of_none rfl
theorem WordFits.fwRestartEnd (t : Nat) : WordFits.Statement (.fwRestartEnd t) :=
  WordFits.of_none rfl
theorem WordFits.hubLogicFault (t : Nat) : WordFits.Statement (.hubLogicFault t) :=
  WordFits.of_none rfl
theorem WordFits.scrubRead (t : Nat) (place : ScrubAt) (found : ScrubFound) : WordFits.Statement (.scrubRead t place found) :=
  WordFits.of_none rfl
theorem WordFits.ckpArm (h : Hdr) (slot : Fin 16) : WordFits.Statement (.ckpArm h slot) :=
  WordFits.of_none rfl
theorem WordFits.ckpCancel (h : Hdr) : WordFits.Statement (.ckpCancel h) :=
  WordFits.of_none rfl
theorem WordFits.ckpFirstWrite (t : Nat) (write : Nat) : WordFits.Statement (.ckpFirstWrite t write) :=
  WordFits.of_none rfl
theorem WordFits.ckpRelease (h : Hdr) (hi : Reg32) : WordFits.Statement (.ckpRelease h hi) :=
  WordFits.of_none rfl
theorem WordFits.ckpDone (h : Hdr) : WordFits.Statement (.ckpDone h) :=
  WordFits.of_none rfl
theorem WordFits.secResetGo (h : Hdr) : WordFits.Statement (.secResetGo h) :=
  WordFits.of_none rfl
theorem WordFits.resetBegin  : WordFits.Statement (.resetBegin) :=
  WordFits.of_none rfl
theorem WordFits.sidebandReset (t : Nat) : WordFits.Statement (.sidebandReset t) :=
  WordFits.of_none rfl
theorem WordFits.resetRelease  : WordFits.Statement (.resetRelease) :=
  WordFits.of_none rfl
theorem WordFits.firmwareBoot (t : Nat) (hbmStacks : BitVec 8) (channels : Fitted) (keyStoreOk : Bool) : WordFits.Statement (.firmwareBoot t hbmStacks channels keyStoreOk) :=
  WordFits.of_none rfl
theorem WordFits.update (h : Hdr) : WordFits.Statement (.update h) :=
  WordFits.of_none rfl
theorem WordFits.commitSvn (h : Hdr) : WordFits.Statement (.commitSvn h) :=
  WordFits.of_none rfl
theorem WordFits.secKsGo (h : Hdr) : WordFits.Statement (.secKsGo h) :=
  WordFits.of_none rfl
theorem WordFits.senseMate (t : Nat) (pwrEn : Bool) (volt : BitVec 16) (restored : Bool) : WordFits.Statement (.senseMate t pwrEn volt restored) :=
  WordFits.of_none rfl
theorem WordFits.sensePart (t : Nat) : WordFits.Statement (.sensePart t) :=
  WordFits.of_none rfl
theorem WordFits.pwrEnFall (t : Nat) : WordFits.Statement (.pwrEnFall t) :=
  WordFits.of_none rfl
theorem WordFits.inputOutOfRange (t : Nat) : WordFits.Statement (.inputOutOfRange t) :=
  WordFits.of_none rfl
theorem WordFits.railUp (t : Nat) : WordFits.Statement (.railUp t) :=
  WordFits.of_none rfl
theorem WordFits.railTimeout (t : Nat) : WordFits.Statement (.railTimeout t) :=
  WordFits.of_none rfl
theorem WordFits.monitorUpdate (t : Nat) (m : Measure) : WordFits.Statement (.monitorUpdate t m) :=
  WordFits.of_none rfl
theorem WordFits.leakDetected (t : Nat) : WordFits.Statement (.leakDetected t) :=
  WordFits.of_none rfl
theorem WordFits.cageOvercurrent (t : Nat) (port : Fin 8) : WordFits.Statement (.cageOvercurrent t port) :=
  WordFits.of_none rfl
theorem WordFits.pwrReqOn (h : Hdr) : WordFits.Statement (.pwrReqOn h) :=
  WordFits.of_none rfl
theorem WordFits.treesReady (t : Nat) : WordFits.Statement (.treesReady t) :=
  WordFits.of_none rfl
theorem WordFits.pwrReqIdle (h : Hdr) : WordFits.Statement (.pwrReqIdle h) :=
  WordFits.of_none rfl
theorem WordFits.pwrReqOff (h : Hdr) : WordFits.Statement (.pwrReqOff h) :=
  WordFits.of_none rfl
theorem WordFits.writeReachesTier (t : Nat) (write : Nat) : WordFits.Statement (.writeReachesTier t write) :=
  WordFits.of_none rfl
theorem WordFits.todFrameTimeout  : WordFits.Statement (.todFrameTimeout) :=
  WordFits.of_none rfl
theorem WordFits.frameDiscard (t : Nat) (port : Fin 8) (macsec : Bool) : WordFits.Statement (.frameDiscard t port macsec) :=
  WordFits.of_none rfl
theorem WordFits.messageDrop (t : Nat) (port : Fin 8) : WordFits.Statement (.messageDrop t port) :=
  WordFits.of_none rfl
theorem WordFits.cageModuleInsertion (t : Nat) (port : Fin 8) (identity : List Byte) : WordFits.Statement (.cageModuleInsertion t port identity) :=
  WordFits.of_none rfl
theorem WordFits.bootUpdateEnd (t : Nat) (flashOk : Bool) : WordFits.Statement (.bootUpdateEnd t flashOk) :=
  WordFits.of_none rfl
theorem WordFits.keyStoreStaged (t : Nat) : WordFits.Statement (.keyStoreStaged t) :=
  WordFits.of_none rfl

end Sys2Proof.Laws
end

