-- ==== Sys2Proof/Tests/Slice0.lean ====
section
/-! SUPPORT. Tests: ill-formed commands that the checks refuse, instruction words written out from the spec, small runs with
results worked out by hand from the spec, and for every statement a state and operands that meet its hypotheses. -/

namespace Sys2Proof.Tests

set_option Elab.async false

open Sys2Proof Sys2Proof.Machine

/-! ## States -/

/-- The state a command leaves. -/
def after (o : Host.Outcome State Fault Refusal) : State :=
  match o with
  | .next s => s
  | _ => State.reset

/-- A module that has booted, with port 0 in service. -/
def up : State := { State.reset with
  sec := { Sec.reset with boot := .ready, lock := true }
  pwr := { Pwr.reset with inReset := false }
  ports := { Port.reset with link := true, mode := 1 } :: List.replicate 7 Port.reset
  regs := [(portAddr 0 0x104, 0x80000000)] }

/-- An open session of a class, which has sent nothing yet. -/
def sess (cls job : Nat) : Session :=
  ⟨1, .open_, cls, 0, job, 8192, 0, [], [], 7, 0, 0, Chan.reset, [], none, 0, 0, []⟩

def hostOf (cls job : Nat) (s : State) : State := { s with sessions := [sess cls job] }

/-- The first message of that session, on port 0. -/
def hdr : Hdr := ⟨100, 0, 1, 1, none, 7, 0xFFFF, false⟩

/-- The session once that message has been heard. -/
def heardSess (cls job : Nat) : Session := sess cls job

def readyB (h : Hdr) (x : Session) (s : State) : Bool :=
  s.shaped && (s.port h.port).link && s.inService h.port && s.forMe (.session h.chan.toNat) h.dst.toNat && decide ((heard h s).session h.chan.toNat = some x)
    && (s.session h.chan.toNat).isSome && (s.session h.chan.toNat).all (fun y => y.phase == .open_) && decide (x.phase = .open_)
    && decide (x.chan.rxNext = h.seq.toNat) && decide (x.chan.rxHeld = []) && decide (x.waiting = [])
    && decide ((heard h s).unackedTo (.session h.chan.toNat) < 256) && !(heard h s).spr.fatal
    && decide ((heard h s).fwDown = none) && decide ((heard h s).fwHeld = []) && decide ((heard h s).pwr.state ≠ .off)
    && decide ((heard h s).sec.resetAt ≠ some 0)

theorem ready_of {h : Hdr} {x : Session} {s : State} (b : readyB h x s = true) : HostReady h x s := by
  simp only [readyB, Bool.and_eq_true, decide_eq_true_eq, Bool.not_eq_true'] at b
  obtain ⟨⟨⟨⟨⟨⟨⟨⟨⟨⟨⟨⟨⟨⟨⟨⟨a1, a2⟩, a3⟩, a0⟩, a4⟩, a5⟩, a6⟩, a7⟩, a8⟩, a9⟩, a10⟩, a11⟩, a12⟩, a13⟩, a14⟩, a15⟩, a16⟩ := b
  exact ⟨a1, a2, a3, a0, a4, ⟨fun e => by rw [e] at a5; exact absurd a5 (by decide), a6⟩, a7, a8, a9, ⟨a10, a11⟩, a12, ⟨a13, a14⟩, a15, a16⟩

def issuesB (p : At) (w id : Nat) (touch : Touch) (s : State) : Bool :=
  s.shaped && decide (((s.cl p.x).cx p.c).cmd = some id) && s.turn p.x p.c
    && decide (((s.cl p.x).cx p.c).code[((s.cl p.x).cx p.c).pc]?.map BitVec.toNat = some w) && !s.hazard p.x p.c touch

theorem stands_of {p : At} {w id : Nat} {s : State} {touch : Touch} (b : issuesB p w id touch s = true) : Stands p w id s := by
  simp only [issuesB, Bool.and_eq_true, decide_eq_true_eq] at b
  obtain ⟨⟨⟨⟨a1, a2⟩, a3⟩, a4⟩, -⟩ := b
  refine ⟨a1, a2, a3, ?_⟩
  cases hv : ((s.cl p.x).cx p.c).code[((s.cl p.x).cx p.c).pc]? with
  | none => rw [hv] at a4; cases a4
  | some v => rw [hv] at a4; exact ⟨v, rfl, by simpa using a4⟩

theorem issues_of {p : At} {w id : Nat} {s : State} {touch : Touch} (b : issuesB p w id touch s = true) : Issues p w id touch s := by
  refine ⟨stands_of b, ?_⟩
  simp only [issuesB, Bool.and_eq_true, Bool.not_eq_true'] at b
  exact b.2

/-! ## A cluster that runs a command -/

/-- A descriptor for logical cluster 0 and job 5, with cost 100. -/
def desc : Desc := ⟨9, 5, 0, false, 0, 100, 0, 0, 0x200000, 0, none, none, none, false⟩

def cmd : Cmd where
  d := desc
  sid := 1
  port := 0
  time := 0
  source := srcIngress 0
  notify := false
  notified := false
  phase := .dispatched
  code := 0
  errArg := 0
  stitch := 0
  charged := true
  posted := true
  step := none
  fenced := false
  standin := false
  fallback := false
  measured := 0
  endsMade := []
  begun := [0]
  after := []
  prods := []
  codeLen := 8

/-- Cluster 0 as given, command 0 dispatched. -/
def withCluster (c : Cluster) : State := { up with cmds := [cmd], clusters := setAt up.clusters 0 c }

/-- Cluster 0 running one word in context 0 with given registers, the rest zero. -/
def cluster (w : Nat) (rs : List Nat) : Cluster := { Cluster.reset .active (some 0) with
  ctxs := [⟨some 0, 0, 0, rs.map (BitVec.ofNat 64) ++ List.replicate (32 - rs.length) 0, [BitVec.ofNat 64 w], .none⟩, Ctx.reset, Ctx.reset] }

def runs (w : Nat) (rs : List Nat) : State := withCluster (cluster w rs)

/-- Cluster 0, context 0, at the stamp 50. -/
def at0 : At := ⟨50, 0, 0⟩

/-! ## Words of the instructions, written out field by field from the forms of R188 to R192 -/

theorem test_word_add : instrOfWord at0 0x0210C80000000000 = some (.add at0 ⟨2, 3, 4, 0⟩) := by decide
theorem test_word_li : instrOfWord at0 0x010BFFFFFFFFFFFF = some (.li at0 ⟨1, 15, BitVec.ofInt 46 (-1)⟩) := by decide
theorem test_word_bltu : instrOfWord at0 0x130047FFFFFFFFFE = some (.bltu at0 ⟨0, 1, 3, BitVec.ofInt 41 (-2)⟩) := by decide
theorem test_word_mxa : instrOfWord at0 0x30088642B0000000 = some (.mxa at0 ⟨1, 2, 3, 4, 5, 6, 0⟩) := by decide
theorem test_word_lch : instrOfWord at0 0x3108864298E84800 = some (.lch at0 ⟨1, 2, 3, 4, 5, 6, 7, 8, 9, 0⟩) := by decide
theorem test_word_cmb : instrOfWord at0 0x3208804280000000 = some (.cmb at0 ⟨1, 2, 0, 4, 5, 0⟩) := by decide
theorem test_word_reserved : instrOfWord at0 0xFF00000000000000 = none ∧ instrOfWord at0 0 = none := by decide
/-- 0x4F is END, 0x48 FENCE, 0x41 BSIG, 0x40 BWAIT: only the opcode is set. -/
theorem test_word_plain : instrOfWord at0 0x4F00000000000000 = some (.endCmd at0 ⟨0, 0, 0, 0⟩)
    ∧ instrOfWord at0 0x4800000000000000 = some (.fence at0 ⟨0, 0, 0, 0⟩)
    ∧ instrOfWord at0 0x4100000000000000 = some (.bsig at0 ⟨0, 0, 0, 0⟩)
    ∧ instrOfWord at0 0x4000000000000000 = some (.bwait at0 ⟨0, 0, 0, 0⟩) := by decide

/-- The table gives no row bits (R61), so no word spells a command. -/
theorem test_no_table_word : decodeTableWord 64 0x0210C80000000000 = none := rfl

/-! ## The scalar core: results worked out from R189 -/

/-- S2 = S0 + S1 wraps at 64 bits. -/
theorem test_add_wraps : ((after (exec (.add at0 ⟨2, 0, 1, 0⟩) (runs 0x0210020000000000 [2 ^ 64 - 1, 2]))).sreg 0 0 2) = 1 := by
  decide +kernel

/-- A shift right by 64 uses the low six bits of B: by 0. -/
theorem test_shr_mod64 : ((after (exec (.shr at0 ⟨2, 0, 1, 0⟩) (runs 0x0A10020000000000 [5, 64]))).sreg 0 0 2) = 5 := by
  decide +kernel

/-- SAR of the most negative number by 63 is -1. -/
theorem test_sar_sign : ((after (exec (.sar at0 ⟨2, 0, 1, 0⟩) (runs 0x0B10020000000000 [2 ^ 63, 63]))).sreg 0 0 2)
    = BitVec.ofInt 64 (-1) := by decide +kernel

/-- BLT compares as signed, BLTU as unsigned: -1 < 1 only signed. -/
theorem test_blt_bltu :
    (((after (exec (.blt at0 ⟨0, 0, 1, 5⟩) (runs 0x1200020000000005 [2 ^ 64 - 1, 1]))).cl 0).cx 0).pc = 5
      ∧ (((after (exec (.bltu at0 ⟨0, 0, 1, 5⟩) (runs 0x1300020000000005 [2 ^ 64 - 1, 1]))).cl 0).cx 0).pc = 1 := by
  decide +kernel

/-- STT then LDT of the same eight bytes, the last of the tile store. -/
theorem test_stt_ldt :
    (((after (exec (.stt at0 ⟨1, 0, 0⟩) (runs 0x0D08000000000000 [16777208, 0x0102030405060708]))).cl 0).ts.map (·.2))
      = [8, 7, 6, 5, 4, 3, 2, 1] := by decide +kernel

/-! ## Instructions that meet the conditions of their statements -/

theorem test_scalar : ∃ r, scalarRow (runs 0x0210020000000000 [2 ^ 64 - 1, 2]) (.add at0 ⟨2, 0, 1, 0⟩) = some r ∧ r.legal = true
    ∧ Issues r.p r.word 0 { sregs := r.touched } (runs 0x0210020000000000 [2 ^ 64 - 1, 2]) :=
  ⟨_, rfl, by decide, issues_of (by decide +kernel)⟩

/-- The last shift amount. -/
theorem test_scalar_shl : ∃ r, scalarRow (runs 0x0910020000000000 [1, 63]) (.shl at0 ⟨2, 0, 1, 0⟩) = some r ∧ r.legal = true
    ∧ Issues r.p r.word 0 { sregs := r.touched } (runs 0x0910020000000000 [1, 63]) :=
  ⟨_, rfl, by decide, issues_of (by decide +kernel)⟩

theorem test_branch : ∃ r, branchRow (runs 0x1300020000000005 [2 ^ 64 - 1, 1]) (.bltu at0 ⟨0, 0, 1, 5⟩) = some r ∧ r.legal = true
    ∧ Issues r.p r.word 0 { sregs := r.touched } (runs 0x1300020000000005 [2 ^ 64 - 1, 1]) :=
  ⟨_, rfl, by decide, issues_of (by decide +kernel)⟩

/-- VL is held to 0xFFFF. -/
theorem test_setvl : Issues at0 (opWord 0x20 (FormR.word ⟨0, 0, 0, 0⟩)) 0 { sregs := [0, 0, 0] } (runs 0x2000000000000000 [0x10000])
    ∧ (((after (exec (.setvl at0 ⟨0, 0, 0, 0⟩) (runs 0x2000000000000000 [0x10000]))).cl 0).cx 0).vl = 0xFFFF :=
  ⟨issues_of (by decide +kernel), by decide +kernel⟩

/-- The last eight bytes of scratch. -/
theorem test_ldt : (16777208 : Nat) + 8 ≤ ((runs 0x0C08000000000000 [16777208]).cl 0).scratch
    ∧ Issues at0 (opWord 0x0C (FormI.word ⟨1, 0, 0⟩)) 0 { sregs := [1, 0], tsR := [(16777208, 8)] } (runs 0x0C08000000000000 [16777208]) :=
  ⟨by decide +kernel, issues_of (by decide +kernel)⟩

theorem test_stt : Issues at0 (opWord 0x0D (FormI.word ⟨1, 0, 0⟩)) 0 { sregs := [1, 0], tsW := [(16777208, 8)] }
    (runs 0x0D08000000000000 [16777208]) := issues_of (by decide +kernel)

/-- Page 0 mapped WRITABLE in HBM. -/
def writablePage : Page := { Page.unmapped with kind := .writable }
def mapped (s : State) : State := { s with pages := [(0, writablePage)] }

def plainReadB (a n id : Nat) (s : State) : Bool :=
  s.inTier a n && !s.poisoned a n && (pagesOf a n).all (fun g => (s.page g).present)
    && !(s.scheds.any fun c => c.on && c.job == ((s.cmds[id]?).elim 0 fun k => k.d.job)
      && c.windows.any fun w => w.outcome == .standin)

theorem plainRead_of {a n id : Nat} {s : State} (b : plainReadB a n id s = true) : PlainRead a n id s := by
  simp only [plainReadB, Bool.and_eq_true, Bool.not_eq_true', List.all_eq_true] at b
  exact ⟨b.1.1.1, b.1.1.2, b.1.2, b.2⟩

theorem test_ldd : PlainRead 2097144 8 0 (mapped (runs 0x0E08000000000000 [2097144]))
    ∧ Issues at0 (opWord 0x0E (FormI.word ⟨1, 0, 0⟩)) 0 { sregs := [1, 0], devR := [(2097144, 8)] }
      (mapped (runs 0x0E08000000000000 [2097144])) :=
  ⟨plainRead_of (by decide +kernel), issues_of (by decide +kernel)⟩

theorem test_movin : PlainRead 32 32 0 (mapped (runs 0x3800420000000000 [16777184, 32]))
    ∧ 16777184 + 32 ≤ ((mapped (runs 0x3800420000000000 [16777184, 32])).cl 0).scratch
    ∧ Issues at0 (opWord 0x38 (FormR.word ⟨0, 1, 1, 0⟩)) 0 { sregs := [0, 1, 1], tsW := [(16777184, 32)], devR := [(32, 32)] }
      (mapped (runs 0x3800420000000000 [16777184, 32])) :=
  ⟨plainRead_of (by decide +kernel), by decide +kernel, issues_of (by decide +kernel)⟩

theorem test_std : (mapped (runs 0x0F08000000000000 [2097144])).writable 2097144 8 = true
    ∧ Issues at0 (opWord 0x0F (FormI.word ⟨1, 0, 0⟩)) 0 { sregs := [1, 0], devW := [(2097144, 8)] }
      (mapped (runs 0x0F08000000000000 [2097144])) :=
  ⟨by decide +kernel, issues_of (by decide +kernel)⟩

theorem test_movout : (mapped (runs 0x3900420000000000 [16777184, 32])).writable 32 32 = true
    ∧ 16777184 + 32 ≤ ((mapped (runs 0x3900420000000000 [16777184, 32])).cl 0).scratch
    ∧ Issues at0 (opWord 0x39 (FormR.word ⟨0, 1, 1, 0⟩)) 0 { sregs := [0, 1, 1], tsR := [(16777184, 32)], devW := [(32, 32)] }
      (mapped (runs 0x3900420000000000 [16777184, 32])) :=
  ⟨by decide +kernel, by decide +kernel, issues_of (by decide +kernel)⟩

/-! ### MXA, CMB, LCH (R115, R190 to R192) -/

/-- FMT B32, WELT, 64 rows, slot 0, FIRST and LAST, every K valid. -/
def arrWord : Nat := 0x48018000FE000000

def prodB32 : Prod := ⟨128, 0, 4, 4, 2⟩

def mxaState : State :=
  let s := runs 0x3000020000000000 [arrWord, 0]
  { s with cmds := [{ cmd with prods := [prodB32] }] }

theorem test_mxa : (mxaState.cmdProds 0)[(0 : Fin 16).val]? = some prodB32
    ∧ (arrayOpOf mxaState at0 0 false 0 0 (mxaState.sreg 0 0 1).toNat 0 0).word = arrWord := ⟨by decide +kernel, by decide +kernel⟩

def mxaState2 : State :=
  let s := runs 0x3000420000000000 [arrWord, 0]
  { s with cmds := [{ cmd with prods := [prodB32] }] }

theorem test_mxa_issues :
    (mxaState2.cmdProds 0)[(0 : Fin 16).val]? = some prodB32
    ∧ (arrayOpOf mxaState2 at0 0 false 0 1 (mxaState2.sreg 0 0 1).toNat 1 1).issueCode (mxaState2.cl 0).heldAfter = 0
    ∧ (ArrWord.ofWord (arrayOpOf mxaState2 at0 0 false 0 1 (mxaState2.sreg 0 0 1).toNat 1 1).word).agrees prodB32 = true
    ∧ Issues at0 (opWord 0x30 (FormMxa.word ⟨0, 1, 1, 1, 1, 0, 0⟩)) 0 { sregs := [0, 1, 1, 1, 1] }
      { mxaState2 with clusters := setAt mxaState2.clusters 0 (cluster (opWord 0x30 (FormMxa.word ⟨0, 1, 1, 1, 1, 0, 0⟩)) [arrWord, 0]) } :=
  ⟨by decide +kernel, by decide +kernel, by decide +kernel, issues_of (by decide +kernel)⟩

/-- A CMB of the same word without FIRST. -/
def cmbState : State := runs (opWord 0x32 (FormCmb.word ⟨0, 1, 0, 1, 1, 0⟩)) [0x48008000FE000000, 0]

theorem test_cmb : (arrayOpOf cmbState at0 0 true 0 1 0 1 1).issueCode (cmbState.cl 0).heldAfter = 0
    ∧ Issues at0 (opWord 0x32 (FormCmb.word ⟨0, 1, 0, 1, 1, 0⟩)) 0 { sregs := [0, 1, 1, 1] } cmbState :=
  ⟨by decide +kernel, issues_of (by decide +kernel)⟩

/-- A chain pass from register V1 to V2 with every stage off. -/
def lchForm : FormLch := ⟨0, 1, 2, 0, 0, 3, 3, 0, 3, 0⟩
def lchState : State := runs (opWord 0x31 lchForm.word) [0, 2 ^ 63 + 1, 2 ^ 63 + 2]

theorem test_lch : (chainOpOf lchState at0 0 lchForm).issueCode = 0
    ∧ Issues at0 (opWord 0x31 lchForm.word) 0 { sregs := [0, 1, 2, 3, 3, 3] } lchState :=
  ⟨by decide +kernel, issues_of (by decide +kernel)⟩

/-! ### Buckles, FENCE, END -/

/-- Buckle 4095 is of job 5 (BKL_JOB at its address plus 4). -/
def ownBuckles (s : State) : State := { s with regs := (0x41000 + 8 * 4095 + 4, 5) :: s.regs }

theorem test_bwait : (ownBuckles (runs 0x4000020000000000 [4095, 0])).mayName 0 4095
    ∧ Issues at0 (opWord 0x40 (FormR.word ⟨0, 0, 1, 0⟩)) 0 { sregs := [0, 1, 1] } (ownBuckles (runs 0x4000020000000000 [4095, 0])) :=
  ⟨by unfold State.mayName; decide +kernel, issues_of (by decide +kernel)⟩

theorem test_bsig : (ownBuckles (runs 0x4100020000000000 [4095, 1])).mayName 0 4095
    ∧ Issues at0 (opWord 0x41 (FormR.word ⟨0, 0, 1, 0⟩)) 0 { sregs := [0, 1, 1] } (ownBuckles (runs 0x4100020000000000 [4095, 1])) :=
  ⟨by unfold State.mayName; decide +kernel, issues_of (by decide +kernel)⟩

theorem test_fence : Issues at0 (opWord 0x48 (FormR.word ⟨0, 0, 0, 0⟩)) 0 {} (runs 0x4800000000000000 []) :=
  issues_of (by decide +kernel)

theorem test_end : Issues at0 (opWord 0x4F (FormR.word ⟨0, 0, 0, 0⟩)) 0 {} (runs 0x4F00000000000000 []) :=
  issues_of (by decide +kernel)

/-- Context 0 of cluster 0 with a stall. -/
def stalled (c : Cmd) (k : Stall) : State :=
  let s := withCluster { Cluster.reset .active (some 0) with ctxs := [⟨some 0, 0, 0, List.replicate 32 0, [], k⟩, Ctx.reset, Ctx.reset] }
  { s with cmds := [c] }

/-- The threshold 0 is met by the count 0; 1 is not. -/
theorem test_waits :
    ((stalled cmd (.buckle 3 0)).shaped = true ∧ (((stalled cmd (.buckle 3 0)).cl 0).cx 0).cmd = some 0
      ∧ (((stalled cmd (.buckle 3 0)).cl 0).cx 0).stall = .buckle 3 0 ∧ (stalled cmd (.buckle 3 0)).waitMet 3 0 = true)
    ∧ ((((stalled cmd (.buckle 3 1)).cl 0).cx 0).stall = .buckle 3 1 ∧ (stalled cmd (.buckle 3 1)).waitMet 3 1 = false)
    ∧ (stalled { cmd with d := { desc with wait0 := some (3, 0) } } .wait0).waitMet 3 0 = true
    ∧ (((stalled { cmd with d := { desc with wait0 := some (3, 0) } } .wait0).cl 0).cx 0).stall = .wait0
    ∧ (stalled { cmd with d := { desc with wait1 := some (3, 0) } } .wait1).waitMet 3 0 = true
    ∧ (((stalled { cmd with d := { desc with wait1 := some (3, 0) } } .wait1).cl 0).cx 0).stall = .wait1 := by decide +kernel

/-! ### Errors -/

theorem test_alive (w : Nat) (rs : List Nat) : Alive 0 (runs w rs) := ⟨cmd, rfl, rfl⟩

/-- FENCE with a reserved bit set. -/
theorem test_illegal : Stands at0 (opWord 0x48 (FormR.word ⟨0, 0, 0, 1⟩)) 0 (runs 0x4800000000000001 [])
    ∧ reservedSet (.fence at0 ⟨0, 0, 0, 1⟩) = true := ⟨stands_of (touch := {}) (by decide +kernel), by decide⟩

/-- A reserved opcode, and a counter outside the code. -/
theorem test_no_instruction :
    (runs 0xFF00000000000000 []).turn 0 0 = true
      ∧ (((runs 0xFF00000000000000 []).cl 0).cx 0).code[(((runs 0xFF00000000000000 []).cl 0).cx 0).pc]? = some 0xFF00000000000000
      ∧ instrOfWord at0 0xFF00000000000000 = none := ⟨by decide +kernel, by decide +kernel, by decide⟩

def pastEnd : State := withCluster { Cluster.reset .active (some 0) with
  ctxs := [⟨some 0, 0, 0, List.replicate 32 0, [], .none⟩, Ctx.reset, Ctx.reset] }

theorem test_pc_range : pastEnd.shaped = true ∧ ((pastEnd.cl 0).cx 0).cmd = some 0 ∧ pastEnd.turn 0 0 = true
    ∧ ((pastEnd.cl 0).cx 0).code[((pastEnd.cl 0).cx 0).pc]? = none := by decide +kernel

/-- A misaligned address, one just past the last eight bytes, an unmapped page, a tile out of range. -/
theorem test_operand_errors :
    Issues at0 (opWord 0x0C (FormI.word ⟨1, 0, 0⟩)) 0 { sregs := [1, 0], tsR := [(4, 8)] } (runs 0x0C08000000000000 [4])
    ∧ Issues at0 (opWord 0x0D (FormI.word ⟨1, 0, 0⟩)) 0 { sregs := [1, 0], tsW := [(4, 8)] } (runs 0x0D08000000000000 [4])
    ∧ ((runs 0x0E08000000000000 [0]).inTier 0 8 = false
      ∧ Issues at0 (opWord 0x0E (FormI.word ⟨1, 0, 0⟩)) 0 { sregs := [1, 0], devR := [(0, 8)] } (runs 0x0E08000000000000 [0]))
    ∧ ((runs 0x0F08000000000000 [0]).writable 0 8 = false
      ∧ Issues at0 (opWord 0x0F (FormI.word ⟨1, 0, 0⟩)) 0 { sregs := [1, 0], devW := [(0, 8)] } (runs 0x0F08000000000000 [0]))
    ∧ ((((runs 0x3B00000000000000 [0]).cl 0).pf 0).inRange 0 = false
      ∧ Issues at0 (opWord 0x3B (FormI.word ⟨0, 0, 0⟩)) 0 { sregs := [0, 0, 0] } (runs 0x3B00000000000000 [0]))
    ∧ Issues at0 (opWord 0x3C (FormI.word ⟨0, 0, 0⟩)) 0 { sregs := [0, 0, 0] } (runs 0x3C00000000000000 [0]) :=
  ⟨issues_of (by decide +kernel), issues_of (by decide +kernel), ⟨by decide +kernel, issues_of (by decide +kernel)⟩,
    ⟨by decide +kernel, issues_of (by decide +kernel)⟩, ⟨by decide +kernel, issues_of (by decide +kernel)⟩, issues_of (by decide +kernel)⟩

/-- With T0 pinning of 8 KiB, the last scratch address is 16769024 - 8. -/
theorem test_scratch_bound : ({ cluster 0 [] with t0Kib := 8 } : Cluster).scratch < 16769016 + 1 + 8 := by decide +kernel

/-- Buckle 4096 does not exist, and buckle 0 is of no job. -/
theorem test_buckle_errors :
    (¬ (runs 0x4000020000000000 [4096, 0]).mayName 0 4096 ∧ ¬ (runs 0x4000020000000000 [0, 0]).mayName 0 0)
    ∧ Issues at0 (opWord 0x40 (FormR.word ⟨0, 0, 1, 0⟩)) 0 { sregs := [0, 1, 1] } (runs 0x4000020000000000 [4096, 0])
    ∧ Issues at0 (opWord 0x41 (FormR.word ⟨0, 0, 1, 0⟩)) 0 { sregs := [0, 1, 1] } (runs 0x4100020000000000 [4096, 0]) :=
  ⟨by unfold State.mayName; decide +kernel, issues_of (by decide +kernel), issues_of (by decide +kernel)⟩

/-- An idle context has no turn; a queued chain pass that reduces into S0 holds what reads S0. -/
theorem test_waiting :
    up.turn 0 0 = false
    ∧ Stands at0 (opWord 0x02 (FormR.word ⟨2, 0, 1, 0⟩)) 0 (withCluster { cluster 0x0210020000000000 [] with
        chainQ := [⟨0, 0, 0, 0, 2 ^ 49, 1, 2 ^ 63, 2 ^ 63, 0, 0, 0, 0, 0, 0⟩] })
    ∧ (withCluster { cluster 0x0210020000000000 [] with
        chainQ := [⟨0, 0, 0, 0, 2 ^ 49, 1, 2 ^ 63, 2 ^ 63, 0, 0, 0, 0, 0, 0⟩] }).hazard 0 0 { sregs := [2, 0, 1] } = true := by
  refine ⟨by decide +kernel, stands_of (touch := {}) (by decide +kernel), by decide +kernel⟩

/-! ### Prefetchers -/

/-- A descriptor at tile-store address 0: no K, FMT 0, 64 lines, one tile, a ring of one at 32. -/
def pfBytes : List (Nat × Byte) := [(0x0E, 64), (0x18, 1), (0x1B, 1), (0x1C, 32)]

theorem test_pfset : ∃ s, (s.cl 0).pfOk 0 ((s.cl 0).pfDesc 0 0) = true
    ∧ Issues at0 (opWord 0x3A (FormI.word ⟨0, 0, 0⟩)) 0 { sregs := [0, 0], tsR := [(0, 32)] } s :=
  ⟨withCluster { cluster 0x3A00000000000000 [] with ts := pfBytes }, by decide +kernel, issues_of (by decide +kernel)⟩

/-- A prefetcher of two tiles, the first delivered. -/
def pfTwo : Prefetcher := { Prefetcher.reset with active := true, count := 2, ring := 2, delivered := 1, klen := 128, lines := 64, fmt := 4 }
def pfState (w n : Nat) : State := withCluster { cluster w [n] with pfs := [pfTwo, Prefetcher.reset, Prefetcher.reset, Prefetcher.reset] }

theorem test_pfwait :
    ((((pfState 0x3B00000000000000 0).cl 0).pf 0).inRange 0 = true ∧ (0 : Nat) < (((pfState 0x3B00000000000000 0).cl 0).pf 0).delivered
      ∧ Issues at0 (opWord 0x3B (FormI.word ⟨0, 0, 0⟩)) 0 { sregs := [0, 0, 0] } (pfState 0x3B00000000000000 0))
    ∧ ((((pfState 0x3B00000000000000 1).cl 0).pf 0).inRange 1 = true ∧ (((pfState 0x3B00000000000000 1).cl 0).pf 0).delivered ≤ 1
      ∧ (((pfState 0x3B00000000000000 1).cl 0).pf 0).failed = false
      ∧ Issues at0 (opWord 0x3B (FormI.word ⟨0, 0, 0⟩)) 0 { sregs := [0, 0, 0] } (pfState 0x3B00000000000000 1))
    ∧ Issues at0 (opWord 0x3C (FormI.word ⟨0, 0, 0⟩)) 0 { sregs := [0, 0, 0] } (pfState 0x3C00000000000000 0) :=
  ⟨⟨by decide +kernel, by decide +kernel, issues_of (by decide +kernel)⟩,
    ⟨by decide +kernel, by decide +kernel, by decide +kernel, issues_of (by decide +kernel)⟩, issues_of (by decide +kernel)⟩

/-- A tile of no K: nothing is read, and the slot is zero. -/
def pfArrive : State := withCluster { cluster 0 [] with
  pfs := [{ pfTwo with delivered := 0, klen := 0, relPending := [(0, 0), (1, 0)] }, Prefetcher.reset, Prefetcher.reset, Prefetcher.reset] }

theorem test_tile_arrives : pfArrive.shaped = true ∧ (pfArrive.cl 0).pfs.length = 4 ∧ ((pfArrive.cl 0).pf 0).active = true
    ∧ ((pfArrive.cl 0).pf 0).failed = false ∧ ((pfArrive.cl 0).pf 0).delivered < ((pfArrive.cl 0).pf 0).count
    ∧ pfArrive.pfMayRead 0 ((pfArrive.cl 0).pf 0) 0 = true
    ∧ servePieces pfArrive 5 (((pfArrive.cl 0).pf 0).pieces 0) = (.bytes [] false 0 0, []) := by decide +kernel

/-! ### Units -/

def queuedOp : ArrOp := ⟨0, 0, 0, 0, false, arrWord, 0, 0, 0, 0⟩

theorem test_stream : (withCluster { cluster 0 [] with arrQ := [queuedOp] }).shaped = true
    ∧ ((withCluster { cluster 0 [] with arrQ := [queuedOp] }).cl 0).arrQ = queuedOp :: []
    ∧ ((withCluster { cluster 0 [] with arrQ := [queuedOp] }).cl 0).arrBlocked queuedOp = false
    ∧ ((withCluster { cluster 0 [] with arrQ := [queuedOp] }).cl 0).lockstep queuedOp = false
    ∧ (ArrWord.ofWord queuedOp.word).keep = false := by decide +kernel

/-- KEEP with the tile that is held. -/
def keepState : State := withCluster { cluster 0 [] with
  arrQ := [{ queuedOp with word := arrWord + 4096 }], stat := some ⟨4, 2, false, false, false, 127, []⟩ }

theorem test_stream_keep : (keepState.shaped = true ∧ (keepState.cl 0).arrBlocked { queuedOp with word := arrWord + 4096 } = false
      ∧ (keepState.cl 0).lockstep { queuedOp with word := arrWord + 4096 } = false
      ∧ (keepState.cl 0).stat = some ⟨4, 2, false, false, false, 127, []⟩)
    ∧ (some (⟨4, 2, false, false, false, 127, []⟩ : Stationary)).map (fun st => (st.fmt, st.mode, st.ref))
    = some (ArrWord.ofWord (arrWord + 4096)).config ∧ (ArrWord.ofWord (arrWord + 4096)).keep = true := by decide +kernel

theorem test_emit : (withCluster { cluster 0 [] with emits := [⟨queuedOp⟩] }).shaped = true
    ∧ ((withCluster { cluster 0 [] with emits := [⟨queuedOp⟩] }).cl 0).accepts (ArrWord.ofWord queuedOp.word) = true := by decide +kernel

def pass (e : Nat) : ChainOp := ⟨0, 0, 0, 0, 0, e, 2 ^ 63 + 1, 2 ^ 63 + 2, 0, 0, 0, 0, 0, 0⟩
def passState (e : Nat) : State := withCluster { cluster 0 [] with chainQ := [pass e] }

theorem test_pass :
    (∀ e ∈ [0, 1], (passState e).shaped = true ∧ ((passState e).cl 0).chainQ = pass e :: []
      ∧ ((passState e).cl 0).chainBlocked (pass e) = false)
    ∧ (pass 1).ccw.src ≠ 7 ∧ ((passState 1).cl 0).recordsMisfit (pass 1) = false
    ∧ ((((passState 1).cl 0).popChain (pass 1) ((pass 1).ccw.src == 7 && ((passState 1).cl 0).tq.any fun q => q.tap)).runPass
        (tick 9 (passState 1)) (pass 1)).isSome = true := by decide +kernel

/-! ### Buckles and the gate -/

/-- The wait of R201: COUNT less T modulo 2^32 below 2^31, at its two ends. -/
theorem test_wait_ends : up.shaped = true ∧ up.waitMet 0 0 = true ∧ up.waitMet 0 (2 ^ 31 + 1) = true ∧ up.waitMet 0 (2 ^ 31) = false := by
  decide +kernel

theorem test_quiet : up.quietGirth := by unfold State.quietGirth; decide +kernel

def gateState (e : Effect) : State := withCluster { cluster 0 [] with gate := [⟨10, 0, 0, 0, e⟩] }

theorem test_gate : ∀ e ∈ [Effect.signal 4095 1, .endCmd], (gateState e).shaped = true
    ∧ (gateState e).gatePass 0 ((gateState e).cl 0).gate = some (⟨10, 0, 0, 0, e⟩, [])
    ∧ ((gateState e).cl 0).toSuppress 0 = 0 ∧ ((gateState e).cl 0).replaying 0 = false ∧ ((gateState e).cl 0).logical = some 0
    ∧ (gateState e).cmds[0]? = some cmd ∧ cmd.live = true ∧ cmd.endsMade.contains 0 = false := by decide +kernel

theorem test_gate_quiet : (gateState (.signal 4095 1)).quietGirth := by unfold State.quietGirth; decide +kernel

/-- The signal counts once, 2 µs after its issue. -/
theorem test_signal : (after (exec (.releaseGatePass 0) (gateState (.signal 4095 1)))).buckleCount 4095 = 1
    ∧ (after (exec (.releaseGatePass 0) (gateState (.signal 4095 1)))).tsc.now = 2010 := by decide +kernel

def hostWrite : DevWrite := ⟨0, 32, List.replicate 32 1, none, none, some (1, 1)⟩
def writeState : State := mapped { hostOf 1 0 up with writes := [hostWrite], nextWrite := 1 }

theorem test_write : writeState.shaped = true ∧ writeState.spr.fatal = false
    ∧ (writeState.writes.find? fun v => v.id == hostWrite.id) = some hostWrite ∧ writeState.ckpBlocks hostWrite.addr hostWrite.bytes.length = false
    ∧ (∀ v ∈ writeState.writes, v.id < hostWrite.id → v.sameOrigin hostWrite = true →
        overlap v.addr v.bytes.length hostWrite.addr hostWrite.bytes.length = false)
    ∧ (∀ g ∈ pagesOf hostWrite.addr hostWrite.bytes.length, (writeState.page g).kind = .writable)
    ∧ writeState.session 1 = some (sess 1 0) ∧ writeState.unackedTo (.session 1) < 256 := by decide +kernel

/-! ### Stitches and time -/

/-- A boundary without a slip, and one moved by 40 µs. -/
theorem test_boundary : (runs 0 []).shaped = true ∧ (runs 0 []).clockless = false ∧ (runs 0 []).sth.gap = false
    ∧ (runs 0 []).sth.change = none ∧ (runs 0 []).cmds[0]? = some cmd ∧ cmd.phase = .dispatched := by decide +kernel

def shortStitch : State := { up with sth := { up.sth with period := 99999, boundary := 99999, replayed := true } }

theorem test_boundary_slip : shortStitch.shaped = true ∧ shortStitch.clockless = false ∧ shortStitch.sth.gap = false
    ∧ shortStitch.sth.change = none ∧ shortStitch.sth.period < 100000 ∧ shortStitch.sth.replayed = true := by decide +kernel

/-- The boundary ends a dispatched command by OVERRUN and advances the number. -/
theorem test_overrun : ((after (exec (.stitchBoundary 0) (runs 0 []))).cmds.map fun c => c.phase) = [.ended .overrun]
    ∧ (after (exec (.stitchBoundary 0) (runs 0 []))).sth.number = 1
    ∧ (after (exec (.stitchBoundary 0) (runs 0 []))).sth.boundary = 2000000 := by decide +kernel

def gapState : State := { up with sth := { up.sth with gap := true, change := some ⟨20000, 1500000⟩ } }

theorem test_origin : gapState.clockless = false ∧ gapState.sth.gap = true ∧ gapState.sth.change = some ⟨20000, 1500000⟩
    ∧ up.sth.closed = false ∧ up.sth.gap = false ∧ up.clockless = false := by decide +kernel

/-- Command 0 runs on cluster 0; a command dispatched and not begun does not. -/
theorem test_late : ((runs 0 []).clockless = false ∧ (runs 0 []).sth.lateSent = false ∧ (runs 0 []).sth.gap = false ∧ (runs 0 []).minSev ≤ 1)
    ∧ cmd.running = true ∧ cmd.lowestRunning = 0 ∧ { cmd with begun := [] }.running = false ∧ { cmd with endsMade := [0] }.running = false := by
  decide +kernel

def logged : State := { up with log := { EvtLog.reset with held := [⟨⟨5, 0, 0x0100, 0, 0, 1, 0, 0⟩, false, none⟩] } }

theorem test_record : logged.log.first = some ⟨5, 0, 0x0100, 0, 0, 1, 0, 0⟩ ∧ (∀ x ∈ logged.sessions, x.sub = none) ∧ logged.log.since = 0 := by
  decide +kernel

/-- REF of the time-stamp unit at 2 selects the pulse and frame inputs. -/
def pulseRef (p : Option Nat) : State := { up with
  regs := (0x20114, 0x200) :: up.regs, tsc := { up.tsc with pulse := p, everLocked := true, ignored := 2 } }

/-- The second 7: A5 5A, six bytes of seconds, 01 00 00 and the sum 0x07 of those eleven modulo 256. -/
def todBytes : List Byte := [0xA5, 0x5A, 0, 0, 0, 0, 0, 7, 1, 0, 0, 0x07]

theorem test_pulse : (pulseRef none).clockless = false ∧ (up.clockless = false ∧ up.tscRef ≠ 2) ∧ (pulseRef none).tscRef = 2 ∧ (pulseRef none).tsc.pulse = none
    ∧ (pulseRef (some 50)).tscRef = 2 ∧ (pulseRef (some 50)).tsc.pulse = some 50 ∧ todSeconds todBytes = some 7
    ∧ 2 ≤ (pulseRef (some 50)).tsc.ignored ∧ (pulseRef (some 50)).tsc.everLocked = true := by decide +kernel

/-- A frame 900 ms after the pulse, the last moment: the offset is the stamp of the pulse less seven seconds. -/
theorem test_tod : (after (exec (.todFrame 900000050 todBytes) (pulseRef (some 50)))).tsc.offset = -6999999950 := by decide +kernel

def ptpState : State := { up with tsc := { up.tsc with sync := some (3, 40, some 10), delayReq := some (3, 60) } }

/-- The state a two-step Sync leaves, whose Follow_Up has not come. -/
theorem test_two_step : (after (exec (.ptpMessage 40 0 ⟨0, .sync 3 true 0 0⟩) up)).tsc.sync = some (3, 40, none)
    ∧ (after (exec (.ptpMessage 50 0 ⟨0, .followUp 3 10 4⟩) (after (exec (.ptpMessage 40 0 ⟨0, .sync 3 true 0 0⟩) up)))).tsc.sync
      = some (3, 36, some 10) := by decide +kernel

theorem test_ptp : bits (ptpState.reg 0x20114) 0 8 = 0 ∧ (ptpState.port 0).link = true ∧ ptpState.timePort = some 0 ∧ ptpState.fwDown = none
    ∧ ptpState.tsc.sync = some (3, 40, some 10) ∧ ptpState.tsc.delayReq = some (3, 60) := by decide +kernel

/-- Out 30 ns, back 100 - 60 = 40 ns: the offset is half of -10; with 101, half of -11 rounded downwards. -/
theorem test_ptp_offset : (after (exec (.ptpMessage 200 0 ⟨0, .delayResp 3 100 0⟩) ptpState)).tsc.offset = -5
    ∧ (after (exec (.ptpMessage 200 0 ⟨0, .delayResp 3 101 0⟩) ptpState)).tsc.offset = -6 := by decide +kernel

/-! ### Messages of a host -/

def withRegs (l : List (Nat × Nat)) (s : State) : State := l.foldl (fun s e => setReg e.1 e.2 s) s

theorem test_host_ready : HostReady hdr (sess 1 0) (hostOf 1 0 up) ∧ (sess 1 0).controls :=
  ⟨ready_of (by decide +kernel), Or.inl rfl⟩

theorem test_job_ready : HostReady hdr (sess 2 5) (hostOf 2 5 up) := ready_of (by decide +kernel)

/-! ### Commands at ingress (R181, R204, R441) -/

/-- A program image of one instruction word at 0x1000: magic LMGP read least significant byte first, version 1, length 8. -/
def imaged (s : State) : State := { mapped s with
  dev := [(0x1000, 0x4C), (0x1001, 0x4D), (0x1002, 0x47), (0x1003, 0x50), (0x1004, 1), (0x1008, 8)] }

def noPair : List Byte := [0, 0, 0, 0, 0xFF, 0xFF, 0, 0]

def descBytes (tag ctrl : Nat) : List Byte :=
  leBytes 4 tag ++ leBytes 2 5 ++ leBytes 1 ctrl ++ [0] ++ leBytes 8 0 ++ leBytes 4 100 ++ [0, 0, 0, 0] ++ leBytes 8 0x1000
    ++ leBytes 8 0x1000 ++ noPair ++ noPair ++ noPair

def reasonFor (s : State) (bs : List Byte) : Option Nat :=
  let u := delivered hdr s
  let d := Desc.ofBytes bs
  u.ingressReason (deliveredSession hdr (sess 1 0) s) (u.cmds.any fun c => c.live && c.sid == 1 && c.d.tag == d.tag) d

def cmdState : State := imaged (hostOf 1 0 up)

theorem test_cmd : HostReady hdr (sess 1 0) cmdState ∧ (descBytes 9 0).length = 64 ∧ (72 : Nat) ≤ (sess 1 0).maxp
    ∧ (∀ y, cmdState.session 1 = some y → y.maxp = (sess 1 0).maxp) ∧ reasonFor cmdState (descBytes 9 0) = none
    ∧ (delivered hdr cmdState).bindOf (Desc.ofBytes (descBytes 9 0)) = .free :=
  ⟨ready_of (by decide +kernel), by decide, by decide, by decide +kernel, by decide +kernel, by decide +kernel⟩

/-- It is admitted to stitch 1, the first whose admission is open. -/
theorem test_cmd_admitted : ((after (exec (.cmd hdr 0 [descBytes 9 0]) cmdState)).cmds.map fun c => (c.phase, c.stitch)) = [(.admitted, 1)] := by
  decide +kernel

/-- Stitch 1 is the first that takes it, and 64 descriptors fit a message. -/
theorem test_cmd_first : FirstFit (Desc.ofBytes (descBytes 9 0)) 1 (delivered hdr cmdState)
    ∧ ((delivered hdr cmdState).bindOf (Desc.ofBytes (descBytes 9 0))).bound = some (none, false)
    ∧ (List.replicate 64 (descBytes 9 0)).length ≤ 64 ∧ 8 + 64 * 64 ≤ (sess 1 0).maxp := by
  refine ⟨⟨by unfold State.mayTake; decide +kernel, ?_, by decide +kernel⟩, by decide +kernel, by decide, by decide⟩
  intro m hm
  have : m = 0 := by omega
  subst this
  unfold State.mayTake
  decide +kernel

/-- TAG 0 is refused with DESCRIPTOR. -/
theorem test_cmd_refused : reasonFor cmdState (descBytes 0 0) = some 6
    ∧ ((after (exec (.cmd hdr 0 [descBytes 0 0]) cmdState)).cmds.map fun c => (c.phase, c.code)) = [(.ended .refused, 6)] := by
  decide +kernel

/-- Slot 0 enabled for job 5, with given steps. -/
def trained (steps : List TStep) (s : State) : State :=
  { withRegs [(trnAddr 0 0, 2 ^ 31 + 5)] s with slots := { TSlot.reset with steps := steps } :: List.replicate 15 TSlot.reset }

def overflowed : TStep := { TStep.fresh 3 [] with phase := .decided, verdict := some true }

/-- An update command of stream 2 with VERDICT, after an OVERFLOW. -/
theorem test_cmd_update : HostReady hdr (sess 1 0) (trained [overflowed] cmdState)
    ∧ (delivered hdr (trained [overflowed] cmdState)).bindOf (Desc.ofBytes (descBytes 9 0xA0)) = .update 0 3 true
    ∧ reasonFor (trained [overflowed] cmdState) (descBytes 9 0xA0) = none :=
  ⟨ready_of (by decide +kernel), by decide +kernel, by decide +kernel⟩

/-! ### Aborts -/

def phases : List Phase := [.held, .admitted, .dispatched, .ended .completed, .ended .overrun]
def abortState (p : Phase) : State := { hostOf 1 0 up with cmds := [{ cmd with phase := p }] }

theorem test_abort : ∀ p ∈ phases, readyB hdr (sess 1 0) (abortState p) = true ∧ (heard hdr (abortState p)).unackedTo (.session 1) < 255
    ∧ (delivered hdr (abortState p)).cmdTagged 1 9 = some 0 := by decide +kernel

theorem test_abort_none : (delivered hdr (hostOf 1 0 up)).cmdTagged 1 9 = none ∧ (delivered hdr (hostOf 1 0 up)).abortResult none = 3 := by
  decide +kernel

/-- A dispatched command ends as ABORTED. -/
theorem test_aborted : ((after (exec (.abort hdr 9) (abortState .dispatched))).cmds.map fun c => c.phase) = [.ended .aborted] := by
  decide +kernel

/-! ### Begin and completion -/

def beginState : State := { imaged up with cmds := [{ cmd with begun := [], d := { desc with program := 0x1000 } }] }

theorem test_begin : beginState.shaped = true ∧ (beginState.cl 0).logical = some 0 ∧ ((beginState.cl 0).cx 0).cmd = none
    ∧ (beginState.cl 0).stopped = false ∧ beginState.pwr.state = .on ∧ beginState.nextCmd 0 0 0 = some 0
    ∧ beginState.serve 5 (0x1000 + 288) 8 = .bytes (List.replicate 8 0) false 0 0 := by decide +kernel

def endedState : State := { up with cmds := [{ cmd with endsMade := [0] }] }

theorem test_complete : endedState.cmds[0]? = some { cmd with endsMade := [0] }
    ∧ endedState.mayComplete 0 { cmd with endsMade := [0] } = true := by decide +kernel

/-! ### Writes of the grid, of buckles and of pages -/

def gridState (lo : Nat) (c : Option GridChange) : State :=
  let s := hostOf 1 0 up
  { s with sth := { s.sth with heldLo := lo, change := c } }

/-- The first origin that is far enough ahead is one period after the stamp 100; a period may be 20,000 to 50,000,000 ns. -/
theorem test_grid_writes :
    (readyB hdr (sess 1 0) (gridState 1000100 none) = true ∧ (delivered hdr (gridState 1000100 none)).sth.change = none
      ∧ (delivered hdr (gridState 1000100 none)).tsc.now + (delivered hdr (gridState 1000100 none)).sth.period
          = 0 * 2 ^ 32 + (delivered hdr (gridState 1000100 none)).sth.heldLo)
    ∧ (readyB hdr (sess 1 0) (gridState 1000099 none) = true
      ∧ (delivered hdr (gridState 1000099 none)).sth.heldLo
          < (delivered hdr (gridState 1000099 none)).tsc.now + (delivered hdr (gridState 1000099 none)).sth.period)
    ∧ (readyB hdr (sess 1 0) (gridState 0 (some ⟨20000, 5000000⟩)) = true
      ∧ (delivered hdr (gridState 0 (some ⟨20000, 5000000⟩))).sth.change ≠ none) := by decide +kernel

/-- The periods at the two ends are taken, those beyond them refused. -/
theorem test_period_ends :
    (after (exec (.sthPeriodWrite hdr 20000) (gridState 0 none))).sth.change = some ⟨20000, 1000000⟩
    ∧ (after (exec (.sthPeriodWrite hdr 50000000) (gridState 0 none))).sth.change = some ⟨50000000, 1000000⟩
    ∧ (after (exec (.sthPeriodWrite hdr 19999) (gridState 0 none))).sth.change = none
    ∧ (after (exec (.sthPeriodWrite hdr 50000001) (gridState 0 none))).sth.change = none := by decide +kernel

/-- A JOB session's own buckle, and another job's. -/
theorem test_buckle_writes :
    readyB hdr (sess 2 5) (ownBuckles (hostOf 2 5 up)) = true ∧ (delivered hdr (ownBuckles (hostOf 2 5 up))).buckleJob 4095 = 5
    ∧ (delivered hdr (ownBuckles (hostOf 2 5 up))).buckleJob 0 ≠ 5 := by decide +kernel

theorem test_buckle_quiet : (delivered hdr (ownBuckles (hostOf 2 5 up))).quietGirth := by unfold State.quietGirth; decide +kernel

def dispatchedState : State := { hostOf 1 0 up with cmds := [cmd, { cmd with phase := .admitted }] }

/-- PG_CTRL of MOD_, which every command uses; PG_MODE of TRN_. -/
theorem test_page_writes :
    readyB hdr (sess 1 0) dispatchedState = true
    ∧ (((delivered hdr dispatchedState).locate 8).any fun l => l.off == 8 && l.ty.gated
        && ((delivered hdr dispatchedState).pagesUsed cmd.d).contains l.base) = true
    ∧ (((delivered hdr dispatchedState).locate 0x60010).any fun l => l.off == 0x10 && l.ty.modeMask != 0) = true := by decide +kernel

def policyState (cls policy : Nat) : State :=
  let s := hostOf cls 0 up
  { s with sec := { s.sec with map := { s.sec.map with policy := policy } } }

theorem test_debug_writes :
    (readyB hdr (sess 3 0) (policyState 3 1) = true ∧ (delivered hdr (policyState 3 1)).policy 0 = true)
    ∧ (readyB hdr (sess 3 0) (policyState 3 0) = true ∧ (delivered hdr (policyState 3 0)).policy 0 = false)
    ∧ readyB hdr (sess 1 0) (policyState 1 1) = true := by decide +kernel

/-! ### Training and reduction groups -/

theorem mayWriteAt_of {x : Session} {h : Hdr} {d : State} {a v : Nat}
    (b : ((d.locate a).any fun l => d.mayWrite (x.writer h.port) l v) = true) : x.mayWriteAt h d a v := by
  unfold Session.mayWriteAt
  cases hl : d.locate a with
  | none => rw [hl] at b; cases b
  | some l => rw [hl] at b; exact ⟨l, rfl, b⟩

def closeState : State := trained [TStep.fresh 0 []] (mapped (hostOf 1 0 up))

theorem test_close : HostReady hdr (sess 1 0) closeState
    ∧ (sess 1 0).mayWriteAt hdr (delivered hdr closeState) (trnAddr 0 8) 0 ∧ (delivered hdr closeState).trnOn 0 = true
    ∧ ((delivered hdr closeState).slot 0).collecting = some (TStep.fresh 0 [])
    ∧ (delivered hdr closeState).settable ((delivered hdr closeState).flagWordAt 0 1) 8 = true
    ∧ (delivered hdr closeState).hubWaits ((delivered hdr closeState).flagWordAt 0 1) 8 = false :=
  ⟨ready_of (by decide +kernel), mayWriteAt_of (by decide +kernel), by decide +kernel, by decide +kernel, by decide +kernel,
    by decide +kernel⟩

def ringState : State := withRegs [(trnAddr 0 0x5C, 65537)] (mapped (hostOf 1 0 up))

/-- A checkpoint that streams page 0, with a copy buffer of n pages. -/
def streaming (n : Nat) (s : State) : State := { setReg 0xB0124 (2 * n) s with ckp := { Ckp.reset with phase := .streaming, pages := [0] } }

theorem test_slot_writes :
    (readyB hdr (sess 1 0) ringState = true ∧ (delivered hdr ringState).trnOn 0 = false
      ∧ (delivered hdr ringState).slotMayEnable 0 5 = true
      ∧ (delivered hdr ringState).enableWaits 0 ((delivered hdr ringState).reg64 (trnAddr 0 0x10)) = false)
    ∧ (readyB hdr (sess 1 0) (streaming 0 ringState) = true ∧ (delivered hdr (streaming 0 ringState)).trnOn 0 = false
      ∧ (delivered hdr (streaming 0 ringState)).slotMayEnable 0 5 = true
      ∧ (delivered hdr (streaming 0 ringState)).enableWaits 0 ((delivered hdr (streaming 0 ringState)).reg64 (trnAddr 0 0x10)) = true
      ∧ (delivered hdr (streaming 1 ringState)).enableWaits 0 ((delivered hdr (streaming 1 ringState)).reg64 (trnAddr 0 0x10)) = false)
    ∧ (delivered hdr (hostOf 1 0 up)).slotMayEnable 0 5 = false
    ∧ (readyB hdr (sess 1 0) closeState = true ∧ (delivered hdr closeState).trnJob 0 = 5) := by decide +kernel

/-- An update command whose verdict is open. -/
def openUpdate : State := { trained [{ TStep.fresh 0 [] with phase := .voting }] (hostOf 1 0 up) with
  cmds := [{ cmd with phase := .held, fenced := true, step := some (0, 0) }] }

theorem test_slot_disable : readyB hdr (sess 1 0) openUpdate = true ∧ (delivered hdr openUpdate).trnOn 0 = true
    ∧ (delivered hdr openUpdate).cmds[0]? = some { cmd with phase := .held, fenced := true, step := some (0, 0) }
    ∧ (((delivered hdr openUpdate).slot 0).find 0).all (fun y => y.verdict.isNone) = true := by decide +kernel

def stopState : State :=
  let s := trained [{ TStep.fresh 0 [] with phase := .voting }] (mapped (hostOf 1 0 up))
  { s with slots := { s.slot 0 with halt := some .stop, pendFlag := some (true, false) } :: List.replicate 15 TSlot.reset }

def isGo : Fallback → Bool
  | .go _ _ _ => true
  | _ => false

theorem test_resume : HostReady hdr (sess 1 0) stopState
    ∧ (sess 1 0).mayWriteAt hdr (delivered hdr stopState) (trnAddr 0 4) (2 + 4 * b2n ((delivered hdr stopState).trnReplay 0))
    ∧ ((delivered hdr stopState).slot 0).halt = some .stop ∧ ((delivered hdr stopState).slot 0).pendFlag = some (true, false)
    ∧ ((((delivered hdr stopState).slot 0).steps.find? fun z => z.phase == .voting)).isSome = true
    ∧ isGo ((delivered hdr stopState).fallback 0) = true ∧ (delivered hdr stopState).verdictWaits 0 0 = false
    ∧ ((delivered hdr closeState).slot 0).halt ≠ some .stop :=
  ⟨ready_of (by decide +kernel), mayWriteAt_of (by decide +kernel), by decide +kernel, by decide +kernel, by decide +kernel,
    by decide +kernel, by decide +kernel, by decide +kernel⟩

/-- One layer wants more than the policy STOP grants: RESUME halts again. With a decision, but no room to copy the page of the
state block, what it writes waits. -/
theorem test_resume_waits :
    let s := { withRegs [(trnAddr 0 0x2C, 2), (trnAddr 0 0x3C, 1)] stopState with dev := [(0, 1)] }
    let w := streaming 0 stopState
    (∀ u ∈ [s, w], readyB hdr (sess 1 0) u = true
      ∧ (((delivered hdr u).locate (trnAddr 0 4)).any fun l => (delivered hdr u).mayWrite ((sess 1 0).writer 0) l (2 + 4 * b2n ((delivered hdr u).trnReplay 0))) = true
      ∧ ((delivered hdr u).slot 0).halt = some .stop ∧ ((delivered hdr u).slot 0).pendFlag = some (true, false)
      ∧ ((delivered hdr u).slot 0).steps.find? (fun z => z.phase == .voting) = some { TStep.fresh 0 [] with phase := .voting }
      ∧ (delivered hdr u).tableOk 0 = true)
    ∧ isGo ((delivered hdr s).fallback 0) = false
    ∧ isGo ((delivered hdr w).fallback 0) = true ∧ (delivered hdr w).verdictWaits 0 0 = true := by decide +kernel

/-- EXP 24 is the last, INTERVAL 1 the first. -/
theorem test_scale : (sess 1 0).mayWriteAt hdr (delivered hdr closeState) (trnAddr 0 0x20) 0x00010018
    ∧ 1 ≤ bits 0x00010018 16 16 ∧ bits 0x00010018 0 5 ≤ 24 := ⟨mayWriteAt_of (by decide +kernel), by decide, by decide⟩

/-- Group 0 of job 5 with two ranks in teams of `team`, this module 0 of rank 0, module 1 of rank 1. -/
def groupRegs (on team : Nat) : List (Nat × Nat) :=
  [(grpAddr 0 0, on * 2 ^ 31 + on * 5), (grpAddr 0 4, 2 * 2 ^ 16), (grpAddr 0 8, team), (grpAddr 0 0x14, 4096), (grpAddr 0 0x1C, 1),
   (grpAddr 0 0x20, 65537), (grpAddr 0 0x24, 1000), (0x90100, 0), (0x90104, 8)]

def grouped (on team : Nat) (s : State) : State := { withRegs (groupRegs on team) (mapped s) with dev := [(4, 1)] }

def enabling (s : State) : State := setReg (grpAddr 0 0) (5 + 0) (delivered hdr s)

theorem test_group_enable :
    (readyB hdr (sess 1 0) (grouped 0 1 (hostOf 1 0 up)) = true ∧ ((delivered hdr (grouped 0 1 (hostOf 1 0 up))).gcfg 0).on = false
      ∧ (enabling (grouped 0 1 (hostOf 1 0 up))).groupMayEnable 0 5 = true)
    ∧ (enabling (hostOf 1 0 up)).groupMayEnable 0 5 = false := by decide +kernel

def voteState (red : Nat) : State :=
  let s := grouped 1 1 (trained [{ TStep.fresh 0 [] with phase := .voting }] (hostOf 1 0 up))
  { s with modes := { s.modes with grt := red, trn := 2 } }

theorem test_vote :
    (∀ r ∈ [0, 1], readyB hdr (sess 1 0) (voteState r) = true)
    ∧ ((delivered hdr (voteState 0)).locate (grpAddr 0 0x50)).any (fun l => (delivered hdr (voteState 0)).mayWrite ((sess 1 0).writer 0) l 1) = true
    ∧ (delivered hdr (voteState 0)).hostReduce = false ∧ (delivered hdr (voteState 1)).hostReduce = true
    ∧ ((delivered hdr (voteState 1)).gcfg 0).on = true ∧ (delivered hdr (voteState 1)).slotOf ((delivered hdr (voteState 1)).gcfg 0).job = some 0
    ∧ ((delivered hdr (voteState 1)).slot 0).find 0 = some { TStep.fresh 0 [] with phase := .voting }
    ∧ ((delivered hdr (voteState 1)).slot 0).pendFlag = none ∧ ((delivered hdr (voteState 1)).slot 0).late = none
    ∧ ((delivered hdr (voteState 1)).slot 0).halt ≠ some .verdictLost ∧ (delivered hdr (voteState 1)).verdictWaits 0 0 = false
    ∧ (delivered hdr (voteState 1)).hostFallback = true := by decide +kernel

def votingSoon : State := mapped (trained [{ TStep.fresh 0 [] with phase := .closing }] { up with modes := { up.modes with trn := 2 } })

theorem test_step_voting : votingSoon.shaped = true ∧ votingSoon.trnOn 0 = true
    ∧ votingSoon.readyToVote 0 = some { TStep.fresh 0 [] with phase := .closing }
    ∧ (votingSoon.slot 0).find 0 = some { TStep.fresh 0 [] with phase := .closing }
    ∧ (∀ g, votingSoon.groupOf (votingSoon.trnJob 0) = some g → (votingSoon.gcfg g).nrank ≤ 1) ∧ votingSoon.hostFallback = true
    ∧ (votingSoon.slot 0).pendFlag = none ∧ (votingSoon.slot 0).late = none ∧ votingSoon.verdictWaits 0 0 = false
    ∧ (votingSoon.slot 0).halt ≠ some .verdictLost := by
  refine ⟨by decide +kernel, by decide +kernel, by decide +kernel, by decide +kernel, ?_, by decide +kernel, by decide +kernel, by decide +kernel,
    by decide +kernel, by decide +kernel⟩
  have : votingSoon.groupOf (votingSoon.trnJob 0) = none := by decide +kernel
  intro g h
  rw [this] at h
  cases h

/-- The local flag is the verdict. -/
theorem test_verdict : (((after (exec (.stepVoting 7 0) votingSoon)).slot 0).steps.map fun y => (y.phase, y.verdict)) = [(.decided, some false)] := by
  decide +kernel

def retiring : State := mapped (trained [{ TStep.fresh 0 [] with phase := .decided }, { TStep.fresh 1 [] with phase := .closing }]
  (withRegs [(trnAddr 0 0x5C, 65537)] up))

theorem test_step_retired : retiring.shaped = true ∧ retiring.trnOn 0 = true
    ∧ retiring.readyToRetire 0 = some { TStep.fresh 0 [] with phase := .decided }
    ∧ retiring.settable (retiring.recordAt 0 (retiring.trnRec 0) 0) (retiring.recordBytes 0 { TStep.fresh 0 [] with phase := .decided }).1.length = true
    ∧ retiring.hubWaits (retiring.recordAt 0 (retiring.trnRec 0) 0) (retiring.recordBytes 0 { TStep.fresh 0 [] with phase := .decided }).1.length = false
    ∧ retiring.ckp.phase ≠ .armed := by decide +kernel

/-! ### Reductions -/

def moduleReadyB (h : MHdr) (m : Msg) (d : Dest) (s : State) : Bool :=
  let a := ((arrived h s).moduleDest h m).2
  s.shaped && (s.port h.port).link && s.inService h.port && s.fabricOn && decide (h.dst.toNat = s.modnum) && decide (h.srcMod.toNat ≠ s.modnum)
    && decide (h.srcMod.toNat ≤ 0xFFFD) && decide (((arrived h s).moduleDest h m).1 = some d)
    && decide (((moduleHeard h d a).chan d).rxNext = h.seq.toNat) && decide (((moduleHeard h d a).chan d).rxHeld = [])
    && !(moduleHeard h d a).spr.fatal

/-- The state in which a message of a module finds its channel. -/
def found (h : MHdr) (m : Msg) (s : State) : State := ((arrived h s).moduleDest h m).2

theorem moduleReady_of {h : MHdr} {m : Msg} {d : Dest} {s : State} (b : moduleReadyB h m d s = true) :
    ModuleReady h m d (found h m s) s := by
  simp only [moduleReadyB, Bool.and_eq_true, decide_eq_true_eq, Bool.not_eq_true'] at b
  obtain ⟨⟨⟨⟨⟨⟨⟨⟨⟨⟨a1, a2⟩, a3⟩, a4⟩, a0⟩, a5⟩, a6⟩, a7⟩, a8⟩, a9⟩, a10⟩ := b
  exact ⟨a1, a2, a3, a4, a0, ⟨a5, a6⟩, Prod.ext a7 rfl, a8, a9, a10⟩

theorem fromMember_of {h : MHdr} {n : InstName} {g r : Nat} {u : State}
    (b : (decide (u.groupOf n.job.toNat = some g) && decide (u.rankOf (u.gcfg g) h.srcMod.toNat = some r) && decide (r ≠ (u.gcfg g).rank)
      && decide (n.entry.toNat < (u.gcfg g).entries) && (u.group g).queued.all fun q => q.1 != 0xFFF) = true) : FromMember h n g r u := by
  simp only [Bool.and_eq_true, decide_eq_true_eq, List.all_eq_true, bne_iff_ne] at b
  obtain ⟨⟨⟨⟨a1, a2⟩, a3⟩, a4⟩, a5⟩ := b
  exact ⟨a1, a2, a3, Or.inr a4, a5⟩

def mhdr : MHdr := ⟨100, 0, 0xF0000000, 1, 1, none, 0, false⟩
def iname : InstName := ⟨5, 0, 0, 0⟩

/-- An instance of entry 0 of group 0 with four elements, whose stitch of D is 1. -/
def inst (op : Nat) (ops : List Operand) : Inst :=
  ⟨0, 0, 0, 0, false, 0, 0, none, op, false, 4, 0x2000, 0xFFFF, none, 0, 1, 0, [], false, ops, false, false, none, [], none, none, 0, 0⟩

def start1 : RedStart := ⟨iname, 1, 1, 1, 1, 1, 0, 1, [true]⟩

def withInst (team : Nat) (is : List Inst) : State :=
  let s := grouped 1 team up
  { s with groups := { Group.reset with insts := is } :: List.replicate 15 Group.reset }

def freshOp : Operand := ⟨1, none, 0, [], 0, false, false⟩
def startedOp : Operand := ⟨1, some start1, 50, [], 0, false, false⟩

def modelDelivered (m : Msg) (s : State) : State := moduleDelivered mhdr (.reduction 1) (found mhdr m s)

def memberB (m : Msg) (s : State) : Bool :=
  let u := modelDelivered m s
  moduleReadyB mhdr m (.reduction 1) s && (decide (u.groupOf iname.job.toNat = some 0)
      && decide (u.rankOf (u.gcfg 0) mhdr.srcMod.toNat = some 1) && decide (1 ≠ (u.gcfg 0).rank)
      && decide (iname.entry.toNat < (u.gcfg 0).entries) && (u.group 0).queued.all fun q => q.1 != 0xFFF)

theorem member_of {m : Msg} {s : State} (b : memberB m s = true) :
    ModuleReady mhdr m (.reduction 1) (found mhdr m s) s ∧ FromMember mhdr iname 0 1 (modelDelivered m s) := by
  simp only [memberB, Bool.and_eq_true] at b
  exact ⟨moduleReady_of b.1, fromMember_of (by simpa only [Bool.and_eq_true] using b.2)⟩

theorem test_red_start : (ModuleReady mhdr (.redStart start1) (.reduction 1) (found mhdr (.redStart start1) (withInst 2 [inst 0 [freshOp]])) (withInst 2 [inst 0 [freshOp]])
      ∧ FromMember mhdr iname 0 1 (modelDelivered (.redStart start1) (withInst 2 [inst 0 [freshOp]])))
    ∧ (modelDelivered (.redStart start1) (withInst 2 [inst 0 [freshOp]])).instOf 0 iname = some (inst 0 [freshOp])
    ∧ (inst 0 [freshOp]).operandOf 1 = some freshOp :=
  ⟨member_of (by decide +kernel), by decide +kernel, by decide⟩

def data1 (shard : BitVec 16) : RedData := ⟨iname, 0, 2, shard, [1, 0, 0, 0, 2, 0, 0, 0]⟩

/-- Elements 0 and 1 of a point's sum, and of the shard of rank 0, which is elements 0 and 1 of four. -/
theorem test_red_data :
    (ModuleReady mhdr (.redData (data1 0xFFFF)) (.reduction 1) (found mhdr (.redData (data1 0xFFFF)) (withInst 1 [inst 0 [startedOp]])) (withInst 1 [inst 0 [startedOp]])
      ∧ FromMember mhdr iname 0 1 (modelDelivered (.redData (data1 0xFFFF)) (withInst 1 [inst 0 [startedOp]])))
    ∧ (modelDelivered (.redData (data1 0xFFFF)) (withInst 1 [inst 0 [startedOp]])).instOf 0 iname = some (inst 0 [startedOp])
    ∧ (data1 0).elems.length = (data1 0).count.toNat * opBytes 0
    ∧ (modelDelivered (.redData (data1 0)) (withInst 1 [inst 0 [startedOp]])).instOf 0 iname = some (inst 0 [startedOp])
    ∧ ((modelDelivered (.redData (data1 0)) (withInst 1 [inst 0 [startedOp]])).gcfg 0).nrank = 2 ∧ shardOf 4 2 0 = (0, 2)
    ∧ ((modelDelivered (.redData (data1 0)) (withInst 1 [inst 0 [startedOp]])).gcfg 0).finalRank = 1 :=
  ⟨member_of (by decide +kernel), by decide +kernel, by decide, by decide +kernel, by decide +kernel, by decide, by decide +kernel⟩

theorem test_red_final :
    (ModuleReady mhdr (.redFinal ⟨iname, 2, 0, [true, true]⟩) (.reduction 1)
        (found mhdr (.redFinal ⟨iname, 2, 0, [true, true]⟩) (withInst 1 [inst 0 [startedOp]])) (withInst 1 [inst 0 [startedOp]])
      ∧ FromMember mhdr iname 0 1 (modelDelivered (.redFinal ⟨iname, 2, 0, [true, true]⟩) (withInst 1 [inst 0 [startedOp]])))
    ∧ (modelDelivered (.redFinal ⟨iname, 2, 0, [true, true]⟩) (withInst 1 [inst 0 [startedOp]])).instOf 0 iname = some (inst 0 [startedOp])
    ∧ ((modelDelivered (.redFinal ⟨iname, 2, 0, [true, true]⟩) (withInst 1 [inst 0 [startedOp]])).gcfg 0).finalRank = 1 :=
  ⟨member_of (by decide +kernel), by decide +kernel, by decide +kernel⟩

/-- No message and no vote waits for a place in these states. -/
theorem test_red_quiet : ∀ m ∈ [Msg.redStart start1, .redData (data1 0), .redFail iname], ∀ s ∈ [withInst 2 [inst 0 [freshOp]], withInst 1 []],
    (modelDelivered m s).redWaits = [] ∧ (modelDelivered m s).voteWaits = [] := by decide +kernel

/-- The sender left itself out, LATE, in an instance that has ended here; its START comes again, and only once. -/
def lateStart : RedStart := { start1 with dec := 2, inmap := [false] }
def leftOut (again : Bool) : Inst := { inst 0 [{ startedOp with start := some lateStart, again := again }] with ended := some 1 }

theorem test_red_again : (ModuleReady mhdr (.redStart lateStart) (.reduction 1) (found mhdr (.redStart lateStart) (withInst 2 [leftOut false])) (withInst 2 [leftOut false])
      ∧ FromMember mhdr iname 0 1 (modelDelivered (.redStart lateStart) (withInst 2 [leftOut false])))
    ∧ (modelDelivered (.redStart lateStart) (withInst 2 [leftOut false])).instOf 0 iname = some (leftOut false)
    ∧ (leftOut false).repeats 1 lateStart = true ∧ (leftOut true).repeats 1 lateStart = false :=
  ⟨member_of (by decide +kernel), by decide +kernel, by decide, by decide⟩

/-- A START that would open instance 257 of the port waits, and instance 256 is opened. -/
def crowded (n : Nat) : State := withInst 1 (List.replicate n { inst 0 [] with k := 1 })

theorem test_red_blocked : moduleReadyB mhdr (.redStart start1) (.reduction 1) (crowded 256) = true
    ∧ (modelDelivered (.redStart start1) (crowded 256)).redBlocked mhdr.srcMod.toNat (.redStart start1) = true
    ∧ (modelDelivered (.redStart start1) (crowded 255)).redBlocked mhdr.srcMod.toNat (.redStart start1) = false := by decide +kernel

/-- FAIL for an instance this module has not heard of. -/
theorem test_red_fail :
    (ModuleReady mhdr (.redFail iname) (.reduction 1) (found mhdr (.redFail iname) (withInst 1 [])) (withInst 1 [])
      ∧ FromMember mhdr iname 0 1 (modelDelivered (.redFail iname) (withInst 1 [])))
    ∧ (modelDelivered (.redFail iname) (withInst 1 [])).instOf 0 iname = none
    ∧ (modelDelivered (.redFail iname) (withInst 1 [])).portInsts ((modelDelivered (.redFail iname) (withInst 1 [])).groupPort 0) < 256 :=
  ⟨member_of (by decide +kernel), by decide +kernel, by decide +kernel⟩

/-- No group serves job 6. -/
theorem test_red_dropped : moduleReadyB mhdr (.redFail ⟨6, 0, 0, 0⟩) (.reduction 1) (withInst 1 []) = true
    ∧ (modelDelivered (.redFail ⟨6, 0, 0, 0⟩) (withInst 1 [])).groupOf 6 = none := by decide +kernel

def queuedState : State :=
  let s := grouped 1 1 up
  { s with groups := { Group.reset with queued := [(0, 10, 0, none, 1)] } :: List.replicate 15 Group.reset }

theorem test_trigger_queued : queuedState.shaped = true ∧ queuedState.redWaits = [] ∧ queuedState.voteWaits = [] ∧ (queuedState.gcfg 0).on = true
    ∧ queuedState.mayStart 0 0 = true ∧ Group.takeQueued 0 (queuedState.group 0).queued = (some (10, 0, none), [])
    ∧ ∀ v ∈ queuedState.waitingStarts (queuedState.groupPort 0), startsBefore v
      (queuedState.deadline (queuedState.entry (queuedState.gcfg 0) 0).dlNs (queuedState.entry (queuedState.gcfg 0) 0).dlStitch, (queuedState.gcfg 0).job, 0, 0)
        = false :=
  ⟨by decide +kernel, rfl, rfl, by decide +kernel, by decide +kernel, rfl, by decide +kernel⟩

theorem test_operand_timeout : (withInst 2 [inst 0 [freshOp]]).shaped = true
    ∧ (withInst 2 [inst 0 [freshOp]]).timed iname = some (0, (withInst 2 [inst 0 [freshOp]]).gcfg 0, inst 0 [freshOp])
    ∧ ((withInst 2 [inst 0 [freshOp]]).instD (inst 0 [freshOp])).isSome = true ∧ ((withInst 2 [inst 0 [freshOp]]).gcfg 0).forced = false
    ∧ ((withInst 2 [inst 0 [freshOp]]).gcfg 0).srcs = [⟨1, 1, 1, 1, false⟩] := by decide +kernel

theorem test_instance_fail : (withInst 2 [inst 0 [startedOp]]).timed iname = some (0, (withInst 2 [inst 0 [startedOp]]).gcfg 0, inst 0 [startedOp])
    ∧ ((withInst 2 [inst 0 [startedOp]]).failAt ((withInst 2 [inst 0 [startedOp]]).gcfg 0) (inst 0 [startedOp])).isSome = true
    ∧ (inst 0 [startedOp]).short ((withInst 2 [inst 0 [startedOp]]).gcfg 0) = true := by decide +kernel

def voteInst : Inst := { inst 6 [freshOp] with entry := 0xFFF, step := 3, nelem := 1 }

def votingState : State :=
  let s := grouped 1 2 (trained [{ TStep.fresh 3 [] with phase := .voting }] up)
  { s with groups := { Group.reset with insts := [voteInst] } :: List.replicate 15 Group.reset }

theorem test_vote_timeout : votingState.shaped = true
    ∧ votingState.votingOn 0 = some (0, votingState.gcfg 0, { TStep.fresh 3 [] with phase := .voting })
    ∧ (votingState.group 0).inst 0xFFF 0 3 = some voteInst ∧ (votingState.group 0).queued = []
    ∧ (votingState.gcfg 0).srcs = [⟨1, 1, 1, 1, false⟩] := by decide +kernel

/-! ### Pages and schedules -/

def memFit (s : State) : State := { s with spr := { s.spr with
  hbm := List.replicate 8 { Hbm.reset with inserv := true }, ddr := List.replicate 16 { Ddr.reset with inserv := true } } }

def page0 (p : Page) : State := { memFit up with pages := [(0, p)] }
def libPage (copies : List Tier) : Page := { Page.unmapped with kind := .library, home := .t4, copies := copies }
def lentPage (copies : List Tier) : Page := { Page.unmapped with kind := .lent, copies := copies, lender := some (0, 0) }
def inT1 (k : Nat) (s : State) : State := { s with pages := s.pages.map fun e => (e.1, { e.2 with home := .t1, stack := k }) }
def leavingStack (k : Nat) (s : State) : State := { s with spr := { s.spr with hbm := setAt s.spr.hbm k { Hbm.reset with inserv := true, leaving := true } } }

/-- A page in use goes to any stack of T1, one with a hint of tree 2 only to stacks 4 and 5; a home in T1 goes to another stack,
and to T2 when its stack leaves; a copy of a LIBRARY page goes to another stack, and to no other tier. -/
theorem test_migration :
    let used : Page := { writablePage with home := .t2, uses := List.replicate 4 true }
    let near : Page := { used with hint := 2 ^ 9 + 2 * 2 ^ 7 }
    (∀ s ∈ [page0 used, inT1 0 (page0 writablePage), leavingStack 0 (inT1 0 (page0 writablePage)), page0 (libPage [.t1])],
      s.shaped = true ∧ s.clockless = false)
    ∧ (page0 used).mayMigrate 0 (.t1 3) = true ∧ (page0 { used with uses := List.replicate 3 true }).mayMigrate 0 (.t1 3) = false
    ∧ (page0 near).mayMigrate 0 (.t1 3) = false ∧ (page0 near).mayMigrate 0 (.t1 4) = true
    ∧ (page0 used).mayMigrate 0 .t2 = false ∧ (inT1 0 (page0 writablePage)).mayMigrate 0 (.t1 5) = true
    ∧ (inT1 0 (page0 writablePage)).mayMigrate 0 .t2 = false ∧ (leavingStack 0 (inT1 0 (page0 writablePage))).mayMigrate 0 .t2 = true
    ∧ (leavingStack 5 (inT1 0 (page0 writablePage))).mayMigrate 0 (.t1 5) = false
    ∧ (page0 (libPage [.t1])).mayMigrate 0 (.t1 2) = true ∧ (page0 (libPage [.t1])).mayMigrate 0 .t2 = false := by decide +kernel

theorem test_page_arrival :
    (∀ s ∈ [page0 (libPage []), page0 (lentPage [.t1])], s.shaped = true ∧ s.clockless = false ∧ s.mayArrive 0 (.t1 3) = true ∧ s.mayArrive 0 .t2 = true)
    ∧ ((page0 (libPage [])).page 0).kind = .library ∧ ((page0 (libPage [])).page 0).loading = false ∧ (page0 (libPage [])).waitReads = []
    ∧ ((page0 (lentPage [.t1])).page 0).kind = .lent ∧ ((page0 (lentPage [.t1])).page 0).copies = [.t1] := by decide +kernel

theorem test_arrival_hints : ∀ g, hintOnce ((page0 (libPage [])).page g).hint = false := by
  intro g
  by_cases h : (0 == g) = true <;> simp [page0, State.page, readAt, h, libPage, Page.unmapped, hintOnce, bit] <;> decide

def window (addr : Nat) : Window := ⟨0, addr, 65536, 0x20000, 0, 100, 0, 0, 0, 0, .t1, none, false, .none, 0⟩

/-- A schedule with one window, its log at 0x10000 in page 0, which is WRITABLE; page 1 is LIBRARY. -/
def scheduled (addr : Nat) (copies : List Tier) : State := { up with
  pages := [(0, writablePage), (1, libPage copies)]
  scheds := { Sched.reset with on := true, count := 1, job := 5, dlog := 0, dlogCap := 2, windows := [window addr] }
    :: List.replicate 15 Sched.reset }

theorem test_schedule_deadline :
    (∀ s ∈ [scheduled pageSize [], scheduled pageSize [.t1]], s.shaped = true
      ∧ (s.sched 0).windows.find? (fun w => w.entry == 0 && !w.decided) = some (window pageSize) ∧ (s.sched 0).on = true
      ∧ ((s.sched 0).windows.any fun v => !v.decided && (decide (s.schedDeadline (s.sched 0) v < s.schedDeadline (s.sched 0) (window pageSize))
        || (s.schedDeadline (s.sched 0) v == s.schedDeadline (s.sched 0) (window pageSize) && decide (v.entry < 0)))) = false
      ∧ s.inWritable ((s.sched 0).dlog) 8 = true ∧ s.poisoned (s.sched 0).dlog 8 = false ∧ s.hubWaits (s.sched 0).dlog 8 = false)
    ∧ (scheduled pageSize []).schedOutcome ((scheduled pageSize []).sched 0) (window pageSize) 100 = (.standin, some (0x0200, 1))
    ∧ (scheduled pageSize [.t1]).schedOutcome ((scheduled pageSize [.t1]).sched 0) (window pageSize) 100 = (.none, none) := by
  decide +kernel

/-- A copy that came at the deadline is late, one that came before it is not (R224). -/
theorem test_late_arrival :
    let s := fun (t : Nat) => { scheduled pageSize [.t1] with
      pages := [(0, writablePage), (1, { libPage [.t1] with since := [(.t1, t)] })] }
    (s 99).arrived (window pageSize) 100 = true ∧ (s 100).arrived (window pageSize) 100 = false := by decide +kernel

/-! ### Page commands (R211 to R216) -/

/-- One page at page `p`, count 1, with a hint, on a module with a stack and a channel of 64 GiB, in host-assisted mode. -/
def pgState (cls p hint : Nat) : State :=
  let s := withRegs [(0x50120, p * 2 ^ 21), (0x50128, 1), (0x5012C, hint)] (mapped (hostOf cls 0 up))
  { s with caps := { s.caps with hbmGib := 128, ddrGib := 64 }, modes := { s.modes with sbg := 1 } }

def pgResult (o : PgOp) (p hint : Nat) : Nat × Nat :=
  (delivered hdr (pgState 1 p hint)).pgCheck o (p * 2 ^ 21) 1 hint

theorem test_page_regs :
    (delivered hdr (pgState 1 1 0x400)).reg64 0x50120 = 2 ^ 21 ∧ bits ((delivered hdr (pgState 1 1 0x400)).reg 0x50128) 0 17 = 1
    ∧ bits ((delivered hdr (pgState 1 1 0x400)).reg 0x5012C) 0 16 = 0x400 := by decide +kernel

/-- Page 0 is WRITABLE and page 1 UNMAPPED: each operation passes on one and fails on the other. -/
theorem test_page_commands :
    (∀ c ∈ [1, 2], readyB hdr (sess c 0) (pgState c 0 0x400) = true ∧ readyB hdr (sess c 0) (pgState c 1 0x400) = true)
    ∧ pgResult .map 1 0x400 = (0, 0) ∧ pgResult .map 0 0x400 = (0, 2)
    ∧ pgResult .unmap 0 0x400 = (0, 0) ∧ pgResult .unmap 1 0x400 = (0, 3)
    ∧ pgResult .hint 0 0x400 = (0, 0) ∧ pgResult .hint 1 0x400 = (0, 3)
    ∧ pgResult .move 0 0x400 = (0, 0) ∧ pgResult .move 1 0x400 = (0, 3)
    ∧ pgResult .query 0 0x400 = (0, 0) ∧ pgResult .query 1 0x400 = (0, 3) := by decide +kernel

/-! ### Edge and spares -/

def twoSessions : State := { up with sessions := [sess 1 0, { sess 1 0 with sid := 2 }, { sess 1 0 with sid := 3, phase := .pending }] }

/-- A module whose cluster T0.C0 is RETIRED and logical number 0 vacant, in host-assisted mode. -/
def vacantState : State :=
  let s := hostOf 1 0 up
  { s with modes := { s.modes with spr := 1 }, clusters := setAt s.clusters 0 (Cluster.reset .retired none) }

theorem test_edge_writes :
    readyB hdr (sess 1 0) twoSessions = true
    ∧ ((delivered hdr twoSessions).session 2).any (fun y => y.phase != .pending) = true
    ∧ ((delivered hdr twoSessions).session 3).all (fun y => y.phase == .pending) = true
    ∧ bit ((delivered hdr twoSessions).reg (portAddr 0 0x104)) 19 = false
    ∧ bit ((delivered hdr twoSessions).reg (portAddr 7 0x104)) 19 = false := by decide +kernel

/-- The spares of tree 0 stand at indices 32 and 35. -/
theorem test_subst : readyB hdr (sess 1 0) vacantState = true
    ∧ (delivered hdr vacantState).hostSpare = true ∧ (delivered hdr vacantState).physOf 0 = none
    ∧ ((delivered hdr vacantState).cl 32).ready = true ∧ ((delivered hdr vacantState).cl 35).ready = true := by decide +kernel

theorem test_subst_done : (after (exec (.sprSubst hdr 0 0 35) vacantState)).spr.changes = [.subst 35 0] := by decide +kernel

/-! ### Security, boot and power -/

theorem test_security_writes :
    (∀ p ∈ [0, 15], readyB hdr (sess 1 0) (policyState 1 p) = true) ∧ (delivered hdr (policyState 1 15)).policy 3 = true
    ∧ (delivered hdr (policyState 1 0)).policy 3 = false ∧ readyB hdr (sess 3 0) (policyState 3 0) = true
    ∧ readyB hdr (sess 2 0) (policyState 2 0) = true
    ∧ (delivered hdr (policyState 1 15)).sec.resetAt = none := by decide +kernel

/-! ### Checkpoints -/

def ckpState (p : CkpPhase) : State :=
  let s := closeState
  { s with ckp := { Ckp.reset with phase := p, pages := [0, 1] }, modes := { s.modes with ckp := 1 } }

theorem test_checkpoint :
    (∀ p ∈ [CkpPhase.idle, .armed, .waiting, .done], readyB hdr (sess 1 0) (ckpState p) = true)
    ∧ ckpBusy (delivered hdr (ckpState .idle)).ckp.phase = false ∧ ckpBusy (delivered hdr (ckpState .armed)).ckp.phase = true
    ∧ (delivered hdr (ckpState .waiting)).ckp.phase = .waiting ∧ (delivered hdr (ckpState .waiting)).hostCkp = true
    ∧ (delivered hdr (ckpState .idle)).trnOn 0 = true ∧ (delivered hdr (ckpState .idle)).stepRetired 0 0 = false
    ∧ (delivered hdr (ckpState .waiting)).reg 0xB0130 = 0 := by decide +kernel

theorem test_checkpoint_quiet : (delivered hdr (ckpState .waiting)).nothingHeld := by
  unfold State.nothingHeld; decide +kernel

def firstWriteState : State := withRegs [(0xB0124, 2)] { up with
  writes := [⟨7, 2 ^ 21 - 4, List.replicate 8 1, none, none, none⟩], ckp := { Ckp.reset with phase := .streaming, pages := [1] } }

theorem test_first_write : (firstWriteState.writes.find? fun v => v.id == 7) = some ⟨7, 2 ^ 21 - 4, List.replicate 8 1, none, none, none⟩
    ∧ (pagesOf (2 ^ 21 - 4) 8).filter (fun g => firstWriteState.ckp.pages.contains g) = [1] ∧ firstWriteState.ckpBuffer = 1
    ∧ (after (exec (.ckpFirstWrite 5 7) firstWriteState)).ckp.copied = [1] := by decide +kernel

/-! ### Flash -/

def flashState (host : Bool) (b : FlashBlock) : State :=
  let s := hostOf 1 0 up
  { s with ftl := { s.ftl with blocks := [(5, b)] }, modes := { s.modes with sbg := 2 * b2n host } }

/-- 50,000 reads make a block due; one read fewer does not, and in host-assisted mode 100,000 are needed (R234, R237). -/
theorem test_flash_due :
    (flashState false ⟨1, 50000, 1, false, 0⟩).relocationDue 5 = true ∧ (flashState false ⟨1, 49999, 1, false, 0⟩).relocationDue 5 = false
    ∧ (flashState true ⟨1, 100000, 1, false, 0⟩).relocationDue 5 = true ∧ (flashState true ⟨1, 99999, 1, false, 0⟩).relocationDue 5 = false
    ∧ (flashState false ⟨1, 50000, 1, false, 0⟩).clockless = false ∧ (flashState false ⟨1, 50000, 1, false, 0⟩).shaped = true := by
  decide +kernel

theorem test_flash :
    (∀ b ∈ [false, true], readyB hdr (sess 1 0) (flashState b ⟨1, 99999, 1, false, 0⟩) = true)
    ∧ ((flashState false ⟨1, 0, 2, true, 0⟩).block 5).retired = true ∧ ((flashState false ⟨1, 99999, 1, false, 0⟩).block 5).retired = false
    ∧ (delivered hdr (flashState true ⟨1, 0, 0, false, 0⟩)).hostFtl = true
    ∧ (delivered hdr (flashState false ⟨1, 0, 0, false, 0⟩)).hostFtl = false := by decide +kernel

/-- A second read at the last level retires the block; the first does not. -/
theorem test_flash_levels :
    ((after (exec (.retentionScan 5 5 true true) (flashState false ⟨1, 9, 1, false, 0⟩))).block 5) = ⟨1, 10, 2, true, 0⟩
    ∧ ((after (exec (.retentionScan 5 5 true true) (flashState false ⟨1, 9, 0, false, 0⟩))).block 5) = ⟨2, 0, 1, false, 0⟩ := by
  decide +kernel

/-- LIBRARY page 9 lies in block 5, with block 3 free and worn 9 times and the blocks not listed never used. -/
def mapState (host : Bool) : State :=
  let s := hostOf 1 0 up
  { s with modes := { s.modes with sbg := 2 * b2n host }
           ftl := { s.ftl with blocks := [(3, ⟨9, 0, 0, false, 0⟩), (5, ⟨1, 50000, 1, false, 8⟩)], maps := [(9, [5])] } }

/-- Relocation moves page 9 to the free block that is least worn, or for wear most worn; the host's order does the same. -/
theorem test_flash_moves : (mapState false).shaped = true ∧ (mapState true).shaped = true ∧ readyB hdr (sess 1 0) (mapState true) = true
    ∧ (mapState false).relocationDue 5 = true ∧ (mapState false).moveTarget false 5 = some 0 ∧ (mapState false).moveTarget true 5 = some 3
    ∧ (let u := after (exec (.ftlRelocation 9 5 false) (mapState false))
       u.ftl.maps = [(9, [0])] ∧ u.block 0 = ⟨0, 0, 0, false, 8⟩ ∧ u.block 5 = ⟨2, 0, 1, false, 0⟩)
    ∧ (after (exec (.ftlCmdRelocate hdr 5) (mapState true))).ftl.maps = [(9, [0])] := by decide +kernel

/-! ### Registers -/

theorem test_reg_accesses :
    (readyB hdr (sess 1 0) (hostOf 1 0 up) = true ∧ readyB hdr (sess 2 0) (hostOf 2 0 up) = true)
    ∧ ((delivered hdr (hostOf 1 0 up)).locate 0x110).isNone = false ∧ (delivered hdr (hostOf 1 0 up)).locate 0x200000 = none
    ∧ (((delivered hdr (hostOf 1 0 up)).locate 0x10110).bind (·.row)).isSome = true
    ∧ (((delivered hdr (hostOf 1 0 up)).locate 0x10110).bind (·.row)).all (fun r => !r.1.lowHalf) = true
    ∧ (delivered hdr (hostOf 1 0 up)).latched 0x10110 = none
    ∧ ((delivered hdr (hostOf 2 0 up)).locate 0x3010C).any
        (fun l => !(delivered hdr (hostOf 2 0 up)).mayWrite ((sess 2 0).writer 0) l 1) = true
    ∧ ((delivered hdr (hostOf 1 0 up)).locate 0x10FF0).any
        (fun l => l.row.isNone && (delivered hdr (hostOf 1 0 up)).mayWrite ((sess 1 0).writer 0) l 1) = true := by decide +kernel

/-- STH_BUDGET at the default period: (1,000,000 - 50,000) times 21 over 20 (R43). -/
theorem test_budget : ((after (exec (.regRead hdr [⟨0x10110, 0⟩]) (hostOf 1 0 up))).unacked.map (·.body)) = [.regResp 1 [(997500, 0)]] := by
  decide +kernel

/-- A module with alarms 0 and 2, a step of its counter, a diverged slot and errors in every unit of cluster 0. -/
def flagged : State :=
  let s := hostOf 1 0 up
  let e : ErrReg := { (s.cl 0).mxaErr with err := true, count := 3 }
  { s with tsc := { s.tsc with stepped := true }, pwr := { s.pwr with alarm := 5 }
           clusters := setAt s.clusters 0 { s.cl 0 with mxaErr := e, lchErr := e, pmcErr := e, run := { (s.cl 0).run with seqErr := true } } }

/-- Writing one clears what it names and nothing else. -/
theorem test_clear_writes :
    let c := fun (a v : Nat) => after (exec (.regWrite hdr [⟨BitVec.ofNat 64 a, BitVec.ofNat 32 v⟩]) flagged)
    readyB hdr (sess 1 0) flagged = true ∧ (c 0x20108 4).tsc.stepped = false ∧ (c 0x20108 3).tsc.stepped = true
    ∧ (c 0xE013C 4).pwr.alarm = 1 ∧ ((c (clusterAddr 0 0 0x10C) (2 ^ 31)).cl 0).mxaErr.count = 0
    ∧ ((c (clusterAddr 0 2 0x110) (2 ^ 31 - 1)).cl 0).lchErr.count = 3 ∧ ((c (clusterAddr 0 1 0x10C) 2).cl 0).run.seqErr = false := by
  decide +kernel
/-! ### Handshakes -/

theorem portReady_of {p : Fin 8} {s : State} (b : (s.shaped && (s.port p).link && s.inService p) = true) : PortReady p s := by
  simp only [Bool.and_eq_true] at b
  exact ⟨b.1.1, b.1.2, b.2⟩

theorem test_port_ready : PortReady 0 up := portReady_of (by decide +kernel)

def key48 : List Byte := List.replicate 48 0x5A
def nh32 : List Byte := List.replicate 32 0x11
def nm32 : List Byte := List.replicate 32 0x22

/-- Slot 0 holds a key that may open sessions of every class. -/
def keyed (s : State) : State := { s with
  sec := { s.sec with map := { s.sec.map with slots := ⟨some key48, 7, 7, true, 1, 65534⟩ :: List.replicate 7 KeySlot.empty } } }

def hello (rsv cls : Nat) : Hello := ⟨0, BitVec.ofNat 8 cls, 0, 8192, 0, nh32, rsv⟩
def pend (resume : Nat) : Session := ⟨1, .pending, 1, 0, 0, 8192, resume, nh32, nm32, 7, 0, 0, Chan.reset, [], none, 0, 0, []⟩
def pending (r : Nat) : State := { keyed up with sessions := [pend r, { sess 1 0 with sid := 2, phase := .linger }], nextSid := 3 }

theorem test_hello :
    ((counted 100 0 (keyed up)).sessions.find? fun x => x.phase == .pending && x.nh == nh32 && x.src == 7) = none
    ∧ (counted 100 0 (keyed up)).helloReason (hello 0 1) = none ∧ (counted 100 0 (keyed up)).helloReason (hello 0 4) = some 5
    ∧ ((counted 100 0 (pending 0)).sessions.find? fun x => x.phase == .pending && x.nh == nh32 && x.src == 7) = some (pend 0)
    ∧ (keyed up).shaped = true ∧ (pending 0).shaped = true := by decide +kernel

def proofHdr : Hdr := ⟨100, 0, 1, 0, none, 7, 0xFFFF, false⟩
def proof1 (r : Nat) : List Byte := hmac384 key48 (ascii "EDGIL-OPEN" ++ (pend r).proofBytes)

/-- A correct PROOF, for a fresh session and for one that resumes the lingering session 2. -/
theorem test_proof : (proof1 0).length = 48 ∧ (proof1 2).length = 48
    ∧ (∀ r ∈ [0, 2], (counted 100 0 (pending r)).session 1 = some (pend r) ∧ ((counted 100 0 (pending r)).keySlot 0).key = some key48
        ∧ (counted 100 0 (pending r)).sessionsHeld < 32)
    ∧ (counted 100 0 (pending 2)).resumable 2 0 1 = true
    ∧ (counted 100 0 (pending 0)).forMe (.session 1) 0xFFFF = true ∧ (counted 100 0 (pending 0)).forMe (.session 1) 9 = false := by
  decide +kernel

theorem test_proof_wrong : (counted 100 0 (pending 0)).proofWrong proofHdr (pend 0) zero48 [] ∧ zero48.length = 48 := by
  refine ⟨fun key hk => Or.inl ?_, by decide⟩
  have : key = key48 := by
    have : ((counted 100 0 (pending 0)).keySlot 0).key = some key48 := by decide +kernel
    rw [show (pend 0).slot = 0 from rfl, this] at hk
    exact (Option.some.inj hk).symm
  subst this
  decide +kernel

theorem test_proof_expired : (counted 100 0 { up with expired := [(1, 0, nh32)] }).session 1 = none
    ∧ ((counted 100 0 { up with expired := [(1, 0, nh32)] }).expired.find? fun e => e.1 == 1) = some (1, 0, nh32) := by decide +kernel

theorem test_reservation : (pending 0).session 1 = some (pend 0) ∧ (pend 0).phase = .pending
    ∧ ({ up with locks := setAt up.locks 7 (some 9) }).locks.getD 7 none = some 9 := by decide +kernel

/-! ### Bytes on the wire -/

/-- A header as R313 lays it out: VER 1, CLASS 0x22, ACKV and RETX, modules 1 and 0xFFFF, channel 2, SEQ 3, ACK 5, PLEN 8. -/
theorem test_header_bytes : (EdgHdr.bytes ⟨0x22, some 5, true, 1, 0xFFFF, 2, 3, 8⟩).map (·.toNat)
    = [1, 0x22, 0xC0, 0, 0, 1, 0xFF, 0xFF, 0, 0, 0, 2, 0, 0, 0, 3, 0, 0, 0, 5, 0, 8, 0, 0] := by decide

/-- An event record as R63 lays it out, least significant byte first. -/
theorem test_event_bytes : ((⟨1, 0x0A8, 0x0605, 3, 5, 2, 9, 7⟩ : Evt).bytes 0x01020304).map (·.toNat)
    = [1, 0, 0, 0, 0, 0, 0, 0, 0xA8, 0, 5, 6, 4, 3, 2, 1, 3, 0, 0, 0, 5, 0, 2, 0, 9, 0, 0, 0, 7, 0, 0, 0] := by decide

/-- The 256-bit vector of RFC 3394, section 4.6, which R393 names for WRAPPED. -/
theorem test_unwrap : aesUnwrap ((upTo 32).map (BitVec.ofNat 8))
      (beBytes 40 0x28C9F404C4B810F4CBCCB35CFB87F8263F5786E2D80ED326CBC7F0E71A99F43BFB988B9B7A02DD21)
    = some (beBytes 32 0x00112233445566778899AABBCCDDEEFF000102030405060708090A0B0C0D0E0F) := by decide +kernel

/-! ### Ends, acknowledgements and repeats -/

theorem test_session_ends : (hostOf 1 0 up).session 1 = some (sess 1 0) ∧ (sess 1 0).phase = .open_
    ∧ (pending 0).session 2 = some { sess 1 0 with sid := 2, phase := .linger } := by decide +kernel

def ackHdr : Hdr := ⟨100, 0, 1, 0, some 2, 7, 0xFFFF, false⟩
def kept (d : Dest) (seq tries : Nat) : Unacked := ⟨d, seq, .regResp 1 [(0, 0)], 10, 10, tries⟩
def sentState (tries : Nat) : State := { up with
  sessions := [{ sess 1 0 with chan := ⟨1, [], 3⟩ }], unacked := [kept (.session 1) 1 tries, kept (.session 1) 2 tries] }

theorem test_ack : PortReady 0 (sentState 0) ∧ (counted 100 0 (sentState 0)).ackDest 1 0 = some (.session 1)
    ∧ (counted 100 0 (sentState 0)).forMe (.session 1) ackHdr.dst.toNat = true
    ∧ seqBefore ((counted 100 0 (sentState 0)).chan (.session 1)).txNext 2 = false :=
  ⟨portReady_of (by decide +kernel), by decide +kernel, by decide +kernel, by decide +kernel⟩

theorem test_retx : (∀ n ∈ [0, 11, 12], (sentState n).unacked.find? (fun k => k.dest == Dest.ofRef (.session 1) && k.seq == 1) = some (kept (.session 1) 1 n))
    ∧ (sentState 0).retxOn (Dest.ofRef (.session 1)) = true := by decide +kernel

theorem test_duplicate : (hostOf 1 0 up).session 1 ≠ none ∧ (hostOf 1 0 up).forMe (.session 1) 0xFFFF = true
    ∧ (heard ⟨100, 0, 1, 0, none, 7, 0xFFFF, false⟩ (hostOf 1 0 up)).session 1 = some (sess 1 0)
    ∧ 2 ^ 31 ≤ (0 + 2 ^ 32 - (sess 1 0).chan.rxNext) % 2 ^ 32 := by decide +kernel

/-! ### Data, events and loads -/

def dataState (p : Page) (cls : Nat) : State := { hostOf cls 0 up with pages := [(0, p)] }

def dStat (w : Bool) (p : Page) (a n most : Nat) : Nat :=
  (delivered hdr (dataState p 1)).dataStatus (deliveredSession hdr (sess 1 0) (dataState p 1)) w a n most

theorem test_data_status : dStat true writablePage 0x1000 32 8176 = 0 ∧ dStat true writablePage 0x1001 32 8176 = 1
    ∧ dStat true (libPage []) 0x1000 32 8176 = 3 ∧ dStat true writablePage (2 ^ 21) 32 8176 = 2
    ∧ dStat false writablePage 0x1000 8160 8176 = 0 ∧ dStat false (libPage []) 0x1000 32 8176 = 0 := by decide +kernel

theorem test_data_ready : (∀ p ∈ [writablePage, libPage []], readyB hdr (sess 1 0) (dataState p 1) = true)
    ∧ (delivered hdr (dataState writablePage 1)).readable 0x1000 8160 = true
    ∧ ((delivered hdr (dataState (libPage []) 1)).page 0).present = false := by decide +kernel

def load1 : Load := ⟨1, 1, 1, 0x4000, [(1, pageSize)]⟩
def loadState (l : Load) : State := { hostOf 1 0 up with
  pages := [(1, { libPage [] with loading := true, hint := 0x4000 })], loads := [l] }

theorem test_loads :
    (∀ l ∈ [load1, { load1 with written := [(1, pageSize - 32)] }], readyB hdr (sess 1 0) (loadState l) = true
      ∧ (delivered hdr (loadState l)).loadAt 1 (2 ^ 21) = some l ∧ (delivered hdr (loadState l)).loadAt 1 (2 ^ 22) = none)
    ∧ (delivered hdr (loadState load1)).loadWhole load1 = true
    ∧ (delivered hdr (loadState load1)).loadWhole { load1 with written := [(1, pageSize - 32)] } = false
    ∧ (delivered hdr (hostOf 1 0 up)).libBeginStatus 1 (2 ^ 21) 1 0x4000 = 0
    ∧ (delivered hdr (hostOf 1 0 up)).libBeginStatus 1 1 1 0x4000 = 1 := by decide +kernel

/-! ### Lending -/

def fabric (s : State) : State := withRegs [(0x90100, 0), (0x90104, 8), (0x90120, 1)] s
def req (baddr : Nat) : LendReq := ⟨1, 1, 0, BitVec.ofNat 64 baddr⟩

def lentState (cls : Nat) (l : Lent) : State :=
  let s := fabric (hostOf cls 0 up)
  { s with lents := l :: List.replicate 31 Lent.reset, pages := [(0, { writablePage with hint := 0x4000, lentOut := [0] })] }

def lent1 : Lent := ⟨some 1, 0, false, [(0, 1)], none, Chan.reset⟩

theorem test_lend_host :
    (readyB hdr (sess 1 0) (lentState 1 lent1) = true ∧ readyB hdr (sess 2 0) (lentState 2 lent1) = true)
    ∧ (delivered hdr (lentState 1 lent1)).lendMapStatus (req (2 ^ 21)) = 0 ∧ (delivered hdr (lentState 1 lent1)).lendMapStatus (req 0) = 2
    ∧ (delivered hdr (lentState 1 lent1)).borrowFor 1 = some 0
    ∧ ((upTo (delivered hdr (lentState 1 lent1)).lents.length).filter fun i => ((delivered hdr (lentState 1 lent1)).lent i).borrower == some 1
        && ((delivered hdr (lentState 1 lent1)).lent i).open_) = [0]
    ∧ ((upTo (delivered hdr (lentState 1 lent1)).lents.length).filter fun i => ((delivered hdr (lentState 1 lent1)).lent i).borrower == some 2
        && ((delivered hdr (lentState 1 lent1)).lent i).open_) = [] := by decide +kernel

def lhdr (n : Nat) : MHdr := ⟨100, 0, BitVec.ofNat 32 (0xE0000000 + n), 1, 1, none, 0, false⟩

def borrowState (b : Borrow) : State :=
  let s := fabric up
  { s with borrows := List.replicate 7 Borrow.reset ++ [b], pages := [(3, { lentPage [] with lender := some (7, 0) })] }

def opening1 : LendOpening := ⟨some (1, 5), 0, 3, 1, 50⟩
def borrow1 : Borrow := ⟨some 1, [opening1], [], [(3, 32, 0)], [⟨9, 0, 32, 50⟩], 10, false, false, Chan.reset⟩

theorem test_borrower :
    moduleReadyB (lhdr 7) (.lendAccept 0) (.borrow 7) (borrowState borrow1) = true
    ∧ moduleReadyB (lhdr 7) (.lendData 9 0 (List.replicate 32 1)) (.borrow 7) (borrowState borrow1) = true
    ∧ moduleReadyB (lhdr 7) .lendNotice (.borrow 7) (borrowState borrow1) = true
    ∧ (let u := moduleDelivered (lhdr 7) (.borrow 7) (found (lhdr 7) .lendNotice (borrowState borrow1))
       (u.borrow 7).opening = [opening1] ∧ ((u.borrow 7).waits.find? fun v => v.tag == 9) = some ⟨9, 0, 32, 50⟩
         ∧ u.fetchingPage 7 0 = some (3, 0) ∧ u.mapReqs = []) := by decide +kernel

/-- The pages of association 7 have gone while an opening waited: once that opening is refused, LEND_CLOSE goes to the lender. -/
def goneState : State := { borrowState { borrow1 with maps := [(3, 1, 0)], waits := [], fetches := [] } with pages := [] }

theorem test_lend_refused : moduleReadyB (lhdr 7) (.lendAccept 2) (.borrow 7) goneState = true
    ∧ (let u := moduleDelivered (lhdr 7) (.borrow 7) (found (lhdr 7) (.lendAccept 2) goneState)
       (u.borrow 7).opening = [opening1] ∧ (u.borrow 7).maps ≠ [] ∧ u.lentHeld 7 = false ∧ u.mapReqs = [])
    ∧ ((after (exec (.lendAccept (lhdr 7) 2) goneState)).borrow 7).ended = true := by decide +kernel

/-- A LEND_MAP to a lender given up, in an association still held, is kept and sent again as any other (R323, R337). -/
theorem test_lend_map_again :
    let s := { lentState 1 lent1 with borrows := { Borrow.reset with lender := some 1, lost := true, opening := [{ opening1 with host := none }] }
                                        :: List.replicate 7 Borrow.reset }
    readyB hdr (sess 1 0) s = true ∧ (delivered hdr s).lendMapStatus (req (2 ^ 21)) = 0 ∧ (delivered hdr s).borrowFor 1 = some 0
    ∧ ((after (exec (.lendMap hdr (req (2 ^ 21))) s)).borrow 0).lost = false := by decide +kernel

theorem test_lend_data : ((after (exec (.lendData (lhdr 7) 9 0 (List.replicate 32 1)) (borrowState borrow1))).devBytes (3 * pageSize) 33)
    = List.replicate 32 1 ++ [0] := by decide +kernel

/-- LEND_OPEN numbered 1 for a page that may be lent and for one that may not; a read of a lent page. -/
theorem test_lender :
    moduleReadyB (lhdr 0) (.lendOpen (req 0)) (.lent 0) (lentState 1 Lent.reset) = true
    ∧ (moduleDelivered (lhdr 0) (.lent 0) (found (lhdr 0) (.lendOpen (req 0)) (lentState 1 Lent.reset))).lendOpenStatus 1 (req 0) = 0
    ∧ moduleReadyB (lhdr 0) (.lendRead 0 8160 1) (.lent 0) (lentState 1 lent1) = true
    ∧ (let u := moduleDelivered (lhdr 0) (.lent 0) (found (lhdr 0) (.lendRead 0 8160 1) (lentState 1 lent1))
       (u.page 0).lentOut.contains 0 = true ∧ u.readable 0 8160 = true ∧ u.poisoned 0 8160 = false)
    ∧ moduleReadyB (lhdr 0) .lendClose (.lent 0) (lentState 1 lent1) = true := by decide +kernel

theorem test_lending_times :
    ((lentState 1 { lent1 with notice := some 5 }).lent 0).notice = some 5 ∧ (lentState 1 { lent1 with notice := some 5 }).shaped = true
    ∧ (borrowState borrow1).shaped = true ∧ ((borrowState borrow1).borrow 7).lender = some 1
    ∧ (borrowState borrow1).lenderLostAt 7 = some 2000050 ∧ ((borrowState borrow1).borrow 7).lost = false := by decide +kernel
/-! ### Frames, links and faults -/

theorem test_frames : (counted 5 0 up).kept.lifecycle = 1 ∧ (counted 5 0 up).ip4 0 = 0
    ∧ (counted 5 0 (withRegs [(portAddr 0 0x110, 0x0A000001)] up)).ip4 0 = 0x0A000001
    ∧ ((counted 5 0 up).sec.attests.filter fun a => decide ((counted 5 0 up).tsc.now < a + 1000000000)).length < 1000 := by decide +kernel

theorem test_arp : ((after (exec (.arpRequest 5 0 7 0x0A000001) (withRegs [(portAddr 0 0x110, 0x0A000001)] up))).tx.map (·.body))
    = [.arpReply 0x0A000001] := by decide +kernel

/-- Port 7 down and enabled, which may train in every mode. -/
def downState : State := withRegs [(portAddr 7 0x104, 0xF8000000)] up

/-- The same with lanes 0 and 1 failed when its link dropped, and an optical module in its cage. -/
def damagedState : State := onPort 7 (fun q => { q with failed := 3, identity := List.replicate 86 2 }) downState

/-- What training then finds: lanes 2 and 3 alone, and a partner taken to accept every mode (R304): two lanes. -/
theorem test_failed_lanes : (after (exec (.edgLinkUp 9 7 15 0) damagedState)).port 7
    = { damagedState.port 7 with link := true, mode := 2, working := 12, partner := 15, allow := 15, lowPower := false } := by decide +kernel

theorem test_links : downState.shaped = true ∧ (downState.port 7).link = false ∧ downState.mayTrain 7 = true
    ∧ pickMode (bits (downState.reg (portAddr 7 0x104)) 27 4) 15 15 = 1 ∧ pickMode (bits (downState.reg (portAddr 7 0x104)) 27 4) 1 0 = 0
    ∧ (up.port 0).link = true ∧ up.fwDown = none ∧ ({ up with fwDown := some 3 }).fwDown ≠ none ∧ up.clockless = false ∧ (up.port 7).supply = true ∧ up.pwr.state = .on ∧ up.sec.boot = .ready := by
  decide +kernel

theorem test_secured : (({ up with ports := { (up.port 0) with secured := true } :: List.replicate 7 Port.reset }).port 0).secured = true := by
  decide

def memState (rows : Nat) (was : Option Nat) : State := { up with
  spr := { up.spr with hbm := List.replicate 8 { Hbm.reset with inserv := true, rows := [(63, rows)] }
                       ddr := List.replicate 16 { Ddr.reset with inserv := true, r1 := was } }
  pages := [(0, writablePage), (1, libPage [])]
  ckp := { Ckp.reset with phase := .waiting, entries := [⟨0, 64, 0, false⟩] } }

theorem test_memories : (∀ r ∈ [63, 64], (memState r none).shaped = true) ∧ ((memState 63 none).hbm 7).inserv = true
    ∧ readAt 0 ((memState 63 none).hbm 7).rows 63 = 63 ∧ ((memState 63 none).hbm 7).leaving = false
    ∧ ((memState 0 (some 3)).ddr 15).inserv = true ∧ ((memState 0 (some 3)).ddr 15).r1 ≠ some 19
    ∧ ((memState 0 none).page (1 / 65536)).kind ≠ .unmapped ∧ (memState 0 none).poison.contains 1 = false
    ∧ (memState 0 none).ckpListed 1 = true ∧ ckpBusy (memState 0 none).ckp.phase = true
    ∧ ((memState 0 none).page (65536 / 65536)).kind = .library ∧ ((memState 0 none).page (65536 / 65536)).lost = false
    ∧ (up.port 0).lanes ≠ 0 ∧ up.spr.bridgeMoved.getD 1 false = false ∧ up.spr.fatal = false ∧ (up.cl 0).state ≠ .retired
    ∧ up.clockless = false := by decide +kernel

theorem test_memories_quiet : (memState 0 none).nothingHeld := by unfold State.nothingHeld; decide +kernel

/-- Three accesses, sixteen rows and sixty-four bursts within 24 hours are enough; one fewer, or one a day too old, is not. -/
theorem test_errors_within :
    erringWithin (86400000000000 + 9) [(1, 9), (2, 9), (2, 10), (3, 9)] = 3 ∧ erringWithin (86400000000000 + 9) [(1, 9), (2, 9), (3, 8)] = 2
    ∧ erringWithin 5 ((upTo 16).map fun k => (k, 5)) = 16 ∧ erringWithin 5 ((upTo 64).map fun k => (k, 5)) = 64
    ∧ erringWithin 5 ((upTo 63).map fun k => (k, 5)) = 63 := by decide +kernel

/-- The last spare row is taken by the third access. -/
theorem test_row_repair : readAt 0 ((after (exec (.hbmRowRepair 5 7 ⟨63, [(1, 5), (2, 5), (3, 5)]⟩) (memState 63 none))).hbm 7).rows 63 = 64 := by
  decide +kernel

/-- A rank with no device erased erases the failing one; with one erased the first error of another poisons its burst and the
channel leaves (R357). -/
theorem test_ddr_erase : ((after (exec (.ddrErase 5 15 1 ⟨19, (upTo 64).map fun k => (k, 5)⟩) (memState 0 none))).ddr 15).r1 = some 19
    ∧ ((after (exec (.ddrErase 5 15 1 ⟨19, [(7, 5)]⟩) (memState 0 (some 3)))).ddr 15).leaving = true
    ∧ (after (exec (.ddrErase 5 15 1 ⟨19, [(7, 5)]⟩) (memState 0 (some 3)))).poison = [7] := by decide +kernel

/-- Cluster T0.C0 serves logical number 0; T0 has spares, or has none. -/
def noSpares : State := { up with clusters := up.clusters.map fun c => { c with state := if c.state = .spare then .retired else c.state } }
def columnsUsed (n : Nat) : State := { up with clusters := setAt up.clusters 0 { up.cl 0 with colUsed := n } }

theorem test_cluster_faults : (∀ s ∈ [up, noSpares, columnsUsed 3, columnsUsed 4], s.shaped = true ∧ s.sec.boot = .ready ∧ (s.cl 0).state = .active
      ∧ (s.cl 0).logical = some 0 ∧ s.hostSpare = false ∧ s.failed 0 = false)
    ∧ up.spareFor 0 = some 32 ∧ noSpares.spareFor 0 = none ∧ ((columnsUsed 3).cl 0).colUsed < 4 ∧ ¬((columnsUsed 4).cl 0).colUsed < 4 := by
  decide +kernel

/-- A cluster that has failed changes at the next boundary; until then its state stands (R350). -/
def failedState : State := after (exec (.clusterFault 5 0 9) up)

theorem test_failed : failedState.failed 0 = true ∧ (failedState.cl 0).state = .active ∧ failedState.spr.changes = [.retire 0 true]
    ∧ failedState.shaped = true ∧ failedState.sec.boot = .ready := by decide +kernel

/-- The image booted still passes R379, or its key has been revoked since. -/
theorem test_firmware_faults : up.fwDown = none ∧ ({ up with fwDown := some 3 }).fwDown = some 3
    ∧ up.kept.mayBoot (up.kept.image up.sec.booted) = true
    ∧ ({ up with kept := { up.kept with revoked := 0xFF } }).kept.mayBoot (up.kept.image up.sec.booted) = false := by decide +kernel

/-- The eight clusters of a phase's tree become RETIRED at the next boundary, and stay so through a reset (R361, R377). -/
theorem test_phase_shed : let s := { up with spr := { up.spr with phases := List.replicate 5 0 } }
    s.clockless = false ∧ ((after (exec (.phaseShed 5 1) s)).spr.changes.length = 8)
    ∧ (after (exec (.stitchBoundary 0) (after (exec (.phaseShed 5 1) s)))).kept.vacated.length = 8 := by decide +kernel

/-! ### Resets, boot and power -/

def fwImage (svn : Nat) : FwImage := ⟨true, 1, svn, 0, 0, zero48⟩
def booting (b : BootPhase) : State := { State.reset with sec := { Sec.reset with boot := b } }

theorem test_resets :
    ({ up with sec := { up.sec with resetAt := some 9 } }).shaped = true ∧ up.pwr.state = .on
    ∧ State.reset.pwr.state = .on ∧ State.reset.pwr.inReset = true ∧ State.reset.shaped = true ∧ State.reset.kept.bootSlot = some 0
    ∧ ({ State.reset with kept := { Kept.reset with images := List.replicate 3 ⟨false, 0, 0, 0, 0, zero48⟩ } }).kept.bootSlot = none
    ∧ (booting .init).sec.boot = .init ∧ (booting .init).kept.lifecycle = 1 := by decide +kernel

/-- Sixteen modules, one of 64 GiB, one that supports only 7200 MT/s: every channel has 64 GiB at 7200 (R239). -/
theorem test_ddr_training : ((trainDdr 0xFFFF 0xFFFF 8 (0xFFFFFFFF - 2 * 4 ^ 5)).map fun d => (d.gib, d.rate)).eraseDups = [(64, 7200)] := by
  decide

/-- Four modules fitted; the one of 64 GiB fails its training, and still bounds the others (R239). -/
theorem test_ddr_failed : ((trainDdr 15 7 8 0xFFFFFFFF).map fun d => (d.inserv, d.gib))
    = List.replicate 3 (true, 64) ++ List.replicate 13 (false, 64) := by decide

theorem test_boot_quiet : ckpBusy (booting .init).ckp.phase = false ∧ (booting .init).kept.store = none := by decide +kernel

def updating (u : Upd) : State := { mapped up with sec := { up.sec with upd := some u, svn := 1 } }

theorem test_update : (updating .svn).sec.upd = some .svn ∧ ((updating .svn).kept.counter < (updating .svn).sec.svn)
    ∧ (updating (.image 1 (0, 383))).sec.upd = some (.image 1 (0, 383)) ∧ (updating (.image 1 (0, 384))).inWritable 0 384 = true
    ∧ 384 = (updating (.image 1 (0, 384))).devNum 0x10 4 + 384 := by decide +kernel

def storing : State := { mapped up with sec := { up.sec with ksBusy := some (1, 0) } }

theorem test_key_store : storing.sec.ksBusy = some (1, 0) ∧ storing.inWritable 0 0x310 = true
    ∧ (stageStore ((storing.session 1).map (·.ks)) storing.sec.map (storing.devBytes 0 0x310)).isNone = true := by decide +kernel

def powerState (p : PwrState) (w : Bool) : State := { up with pwr := { up.pwr with state := p, waking := w } }
def measure (junction : Byte) : Measure := ⟨0, 0, 0, List.replicate 5 0, junction, 30, 30, 30, 400, 0, 0, 5⟩

theorem test_power : (∀ p ∈ [PwrState.off, .rising, .on, .idle], (powerState p true).shaped = true)
    ∧ measureTrips (measure 105) = false ∧ (105 < (measure 106).junction.toNat) ∧ (powerState .on true).clockless = false
    ∧ (powerState .rising true).clockless = true := by
  decide +kernel

theorem test_trip : (after (exec (.monitorUpdate 5 (measure 106)) (powerState .on false))).pwr.state = .off
    ∧ (after (exec (.monitorUpdate 5 (measure 105)) (powerState .on false))).pwr.state = .on := by decide +kernel

/-! ### The queue -/

theorem test_queue : ({ up with pending := [.evtSequence, .cmdLate] }).pending = .evtSequence :: [.cmdLate] ∧ up.pending = [] := ⟨rfl, rfl⟩

theorem test_step : step { State.reset with pending := [.resetRelease, .evtSequence] } = exec .resetRelease { State.reset with pending := [.evtSequence] } := by
  simp only [step]

theorem test_shape_kept : State.reset.shaped = true ∧ (after (step { up with pending := [.evtSequence] })).shaped = true := by decide +kernel
/-! ## Ill-formed commands -/

/-- A slip beyond 40 µs, and the frames, payloads and fields that break their layouts. -/
theorem test_wf_times_and_frames : (Instr.stitchBoundary 40001).wf = false ∧ (Instr.todFrame 0 (List.replicate 11 0)).wf = false := by decide

theorem test_wf_cmd : (Instr.cmd hdr 2 [List.replicate 64 0]).wf = false ∧ (Instr.cmd hdr 0 []).wf = false
    ∧ (Instr.cmd hdr 0 (List.replicate 65 (List.replicate 64 0))).wf = false ∧ (Instr.cmd hdr 0 [List.replicate 63 0]).wf = false := by
  decide +kernel

theorem test_wf_registers : (Instr.regRead hdr []).wf = false ∧ (Instr.regRead hdr [⟨0, 1⟩]).wf = false
    ∧ (Instr.regRead hdr (List.replicate 65 ⟨0, 0⟩)).wf = false ∧ (Instr.regWrite hdr []).wf = false
    ∧ (Instr.regWrite hdr (List.replicate 65 ⟨0, 0⟩)).wf = false := by decide +kernel

theorem test_wf_data : (Instr.dataWrite hdr 0 ⟨0, List.replicate 8177 0⟩).wf = false ∧ (Instr.eventSub hdr 4 0).wf = false
    ∧ (Instr.eventSub hdr 3 2).wf = false := by decide +kernel

theorem test_wf_writes : (Instr.pgCtrlWrite hdr 0x1000C true false).wf = false ∧ (Instr.pgAbort hdr 0x10010 true false).wf = false
    ∧ (Instr.pgModeWrite hdr 0x10008 0).wf = false ∧ (Instr.trnSlotEnable hdr 0 0).wf = false ∧ (Instr.trnSlotEnable hdr 0 0xFFFF).wf = false
    ∧ (Instr.sprSubst hdr 128 0 32).wf = false ∧ (Instr.sprSubst hdr 0 0 36).wf = false := by decide

theorem test_wf_pages : (Instr.migrationSwitch 0 (2 ^ 25) .t2).wf = false ∧ (Instr.pageArrival 0 (2 ^ 25) .t2).wf = false := by decide

theorem test_wf_sessions : (Instr.hello 0 0 7 { hello 0 1 with nh := [] }).wf = false ∧ (Instr.hello 0 0 7 (hello 1 1)).wf = false
    ∧ (Instr.proof hdr [] []).wf = false ∧ (Instr.attestReq 0 0 7 []).wf = false := by decide

theorem test_wf_reductions : (Instr.redStart mhdr { start1 with dec := 0 }).wf = false ∧ (Instr.redStart mhdr { start1 with dec := 4 }).wf = false
    ∧ (Instr.redStart mhdr { start1 with rlo := 2 }).wf = false ∧ (Instr.redStart mhdr { start1 with inmap := [] }).wf = false
    ∧ (Instr.redData mhdr { data1 0 with count := 0 }).wf = false ∧ (Instr.redData mhdr { data1 0 with elems := [1] }).wf = false
    ∧ (Instr.redData mhdr ⟨iname, 0, 2043, 0, List.replicate 8172 0⟩).wf = false
    ∧ (Instr.redFinal mhdr ⟨iname, 2, 4, []⟩).wf = false := by decide +kernel

theorem test_wf_lending : (Instr.lendMap hdr (req 1)).wf = false ∧ (Instr.lendOpen mhdr { req 0 with laddr := 1 }).wf = false
    ∧ (Instr.lendAccept mhdr 8).wf = false := by decide

theorem test_wf_faults : (Instr.edgLinkUp 0 0 0 15).wf = false ∧ (Instr.clusterFault 0 0 0).wf = false ∧ (Instr.clusterFault 0 0 10).wf = false
    ∧ (Instr.sprMemUe 0 (2 ^ 41) 0x0A8).wf = false ∧ (Instr.sprMemUe 0 0 0x0A7).wf = false ∧ (Instr.sprMemUe 0 0 0x0D0).wf = false
    ∧ (Instr.scrubRead 0 (.device (2 ^ 41)) .clean).wf = false ∧ (Instr.monitorUpdate 0 { measure 30 with rails := [] }).wf = false := by decide

/-- And commands at the ends of the same ranges that the checks let pass. -/
theorem test_wf_ends : (Instr.stitchBoundary 40000).wf = true ∧ (Instr.cmd hdr 1 [List.replicate 64 0]).wf = true
    ∧ (Instr.regRead hdr [⟨0, 0⟩]).wf = true ∧ (Instr.trnSlotEnable hdr 0 0xFFFE).wf = true ∧ (Instr.sprSubst hdr 127 3 35).wf = true
    ∧ (Instr.migrationSwitch 0 (2 ^ 25 - 1) .t2).wf = true ∧ (Instr.redStart mhdr start1).wf = true ∧ (Instr.redData mhdr (data1 0)).wf = true
    ∧ (Instr.clusterFault 0 0 9).wf = true ∧ (Instr.sprMemUe 0 (2 ^ 41 - 1) 0x0CF).wf = true := by decide +kernel
end Sys2Proof.Tests
end

section
/-! Register messages of a host session: where an address leads, what one field of a write merges into, and what a message
of one or more accesses does from the delivered state (R331, R401 to R404, R412 to R418). -/

namespace Sys2Proof.Machine

/-! ## Every meaning answers -/

theorem done_eq_next (s : State) : done s = .next s := rfl

/-! ## Bits of a word -/

theorem bits_zero (lo n : Nat) : bits 0 lo n = 0 := by simp [bits]

/-- A field that has been replaced reads what was put there. -/
theorem bits_setBits (w lo n v : Nat) : bits (setBits w lo n v) lo n = v % 2 ^ n := by
  have hsplit : setBits w lo n v = w % 2 ^ lo + 2 ^ lo * (v % 2 ^ n + 2 ^ n * (w / 2 ^ lo / 2 ^ n)) := by
    have hw : w = w / 2 ^ lo % 2 ^ n * 2 ^ lo + (w % 2 ^ lo + 2 ^ lo * (2 ^ n * (w / 2 ^ lo / 2 ^ n))) := by
      calc w = 2 ^ lo * (2 ^ n * (w / 2 ^ lo / 2 ^ n) + w / 2 ^ lo % 2 ^ n) + w % 2 ^ lo := by rw [Nat.div_add_mod, Nat.div_add_mod]
        _ = _ := by rw [Nat.mul_add, Nat.mul_comm (2 ^ lo) (w / 2 ^ lo % 2 ^ n)]; omega
    have hrest : w - w / 2 ^ lo % 2 ^ n * 2 ^ lo = w % 2 ^ lo + 2 ^ lo * (2 ^ n * (w / 2 ^ lo / 2 ^ n)) := by omega
    rw [setBits, bits, hrest, Nat.mul_add, Nat.mul_comm (2 ^ lo) (v % 2 ^ n)]
    omega
  rw [bits, hsplit, Nat.add_mul_div_left _ _ (Nat.two_pow_pos lo), Nat.div_eq_of_lt (Nat.mod_lt _ (Nat.two_pow_pos lo)),
    Nat.zero_add, Nat.add_mul_mod_self_left, Nat.mod_mod]

/-- A bit of a word as the model reads it is the bit of the vector. -/
theorem bit_toNat (v : Reg32) (i : Nat) : bit v.toNat i = v.getLsbD i := by
  rw [BitVec.getLsbD, Nat.testBit_eq_decide_div_mod_eq, bit, bits, Nat.pow_one]
  rfl

/-- The one bit that a write placed. -/
theorem bit_setBits_bits (w v i : Nat) : bit (setBits w i 1 (bits v i 1)) i = bit v i := by
  rw [bit, bits_setBits, bit, bits, Nat.mod_mod]

/-! ## Addresses (R401 to R404) -/

/-- An address below 0x8000000 is the physical address of the page it reaches. -/
theorem locate_of_locPhys (s : State) {addr : Nat} (ha : addr < 0x8000000) (h4 : addr % 4 = 0) :
    s.locate addr = (locPhys addr).map fun l => { l with viaAlias := false } := by
  have h32 : addr < 4294967296 := by omega
  have hlo : ¬ 0x8000000 ≤ addr := by omega
  simp [State.locate, State.physAddr, h32, h4, hlo]

/-- A register of a page of the hub. -/
theorem locate_hubAddr (s : State) {k off : Nat} (hk : k < 15) (ho : off < 0x10000) (h4 : off % 4 = 0) :
    s.locate (hubAddr k off) = (hubPages[k]?).map fun ty => ⟨ty, 0, off, false⟩ := by
  rw [locate_of_locPhys s (by unfold hubAddr; omega) (by unfold hubAddr; omega)]
  have hlt : hubAddr k off < 0xF0000 := by unfold hubAddr; omega
  have hdiv : hubAddr k off / 0x10000 = k := by unfold hubAddr; omega
  have hmod : hubAddr k off % 0x10000 = off := by unfold hubAddr; omega
  rw [locPhys, if_pos hlt, hdiv, hmod, Option.map_map]
  rfl

/-- A register of a page of a cluster. -/
theorem locate_clusterAddr (s : State) {x j off : Nat} (hx : x < 144) (hj : j < 8) (ho : off < 0x10000) (h4 : off % 4 = 0) :
    s.locate (clusterAddr x j off) = (clusterPages[j]?).map fun ty => ⟨ty, x, off, false⟩ := by
  rw [locate_of_locPhys s (by unfold clusterAddr; omega) (by unfold clusterAddr; omega)]
  have hhub : ¬ clusterAddr x j off < 0xF0000 := by unfold clusterAddr; omega
  have hport : ¬ clusterAddr x j off < 0x180000 := by unfold clusterAddr; omega
  have hin : 0x1000000 ≤ clusterAddr x j off ∧ clusterAddr x j off < 0x5800000 := by unfold clusterAddr; omega
  have hpage : (clusterAddr x j off - 0x1000000) % 0x80000 / 0x10000 = j := by unfold clusterAddr; omega
  have hinst : (clusterAddr x j off - 0x1000000) / 0x80000 = x := by unfold clusterAddr; omega
  have hmod : clusterAddr x j off % 0x10000 = off := by unfold clusterAddr; omega
  simp [locPhys, hhub, hport, hin, hpage, hinst, hmod, Function.comp_def]

/-! ## Fields of a write (R13 to R15) -/

/-- Read-only fields take nothing of a write. -/
theorem foldl_mergeField_ro (v : Nat) (shut : Field → Bool) (allows : Field → Nat → Bool) (fs : List Field)
    (h : ∀ f ∈ fs, f.acc = .ro) (m : Merge) : fs.foldl (mergeField v shut allows) m = m := by
  induction fs generalizing m with
  | nil => rfl
  | cons f fs ih =>
    have hf : mergeField v shut allows m f = m := by simp [mergeField, h f (by simp)]
    rw [List.foldl_cons, hf]
    exact ih (fun g hg => h g (by simp [hg])) m

/-- A register whose one field that is not read-only is a W1C bit: the write is the bit it carries there. -/
theorem mergeWord_w1c {r : RegRow} {pre post : List Field} {i rs : Nat} (hr : r.fields = pre ++ ⟨i, i, .w1c, rs, .any⟩ :: post)
    (hpre : ∀ f ∈ pre, f.acc = .ro) (hpost : ∀ f ∈ post, f.acc = .ro) (shown v : Nat) (shut : Field → Bool)
    (allows : Field → Nat → Bool) :
    mergeWord r shown v shut allows = ⟨shown, setBits 0 i 1 (bits v i 1), false⟩ := by
  unfold mergeWord
  rw [hr, List.foldl_append, foldl_mergeField_ro _ _ _ _ hpre, List.foldl_cons, foldl_mergeField_ro _ _ _ _ hpost]
  simp [mergeField, Ok.allows]

/-- A register of one RW field that takes the value: it then shows the value there, and the write is not refused. -/
theorem mergeWord_rw {r : RegRow} {f : Field} (hr : r.fields = [f]) (ha : f.acc = .rw) (shown v : Nat)
    (shut : Field → Bool) (allows : Field → Nat → Bool) (hs : shut f = false)
    (hx : f.ok.allows (bits v f.lo (f.hi + 1 - f.lo)) = true ∧ allows f (bits v f.lo (f.hi + 1 - f.lo)) = true) :
    (mergeWord r shown v shut allows).bad = false
      ∧ bits (mergeWord r shown v shut allows).word f.lo (f.hi + 1 - f.lo) = bits v f.lo (f.hi + 1 - f.lo) := by
  have hlt : bits v f.lo (f.hi + 1 - f.lo) % 2 ^ (f.hi + 1 - f.lo) = bits v f.lo (f.hi + 1 - f.lo) := by
    unfold bits; exact Nat.mod_mod _ _
  simp only [mergeWord, hr, List.foldl_cons, List.foldl_nil, mergeField, ha, hs, Bool.false_eq_true, if_false, hx, Bool.and_self,
    if_true]
  split
  next heq => exact ⟨rfl, (by simpa using heq : _ = _).symm⟩
  next => exact ⟨rfl, by rw [bits_setBits, hlt]⟩

/-- A register of one RW field stores that field alone. -/
theorem store_rw {r : RegRow} {f : Field} (hr : r.fields = [f]) (ha : f.acc = .rw) (old word : Nat) :
    r.store old word = bits word f.lo (f.hi + 1 - f.lo) * 2 ^ f.lo := by
  have hmod : bits word f.lo (f.hi + 1 - f.lo) % 2 ^ (f.hi + 1 - f.lo) = bits word f.lo (f.hi + 1 - f.lo) := by
    unfold bits; exact Nat.mod_mod _ _
  simp [RegRow.store, hr, ha, setBits, bits_zero, hmod]

/-! ## One write (R331, R412 to R415) -/

/-- A session that is not a JOB session may write wherever no row of the protection map says otherwise (R413). -/
theorem mayWrite_of_controls {x : Session} (hc : x.controls) (port : Nat) (s : State) (l : Loc) (v : Nat)
    (hm : (l.ty, l.off) ≠ (.mxa, 0x128)) (hd : (l.ty, l.off) ≠ (.drn, 0x110)) (hb : l.ty ≠ .boot) (hs : l.ty ≠ .sec) :
    s.mayWrite (x.writer port) l v = true := by
  have hcls : ((x.writer port).cls == 2) = false := by
    rcases hc with h | h <;> simp [Session.writer, h]
  unfold State.mayWrite
  rw [hcls]
  obtain ⟨ty, inst, off, via⟩ := l
  dsimp only at *
  rw [if_neg (by decide)]
  split <;> simp_all

/-- A register locked for good ignores a write, whoever makes it (R412). -/
theorem writeLoc_locked {who : Writer} {l : Loc} {r : RegRow × Nat} (v now : Nat) (s : State) (hr : l.row = some r)
    (hl : r.1.locked = true) : writeLoc who l v now s = (stOk, s) := by
  simp [writeLoc, hr, hl]

/-- The test of `writeLoc` for a locked register. -/
theorem any_locked_eq_false {l : Loc} (hr : ∀ r, l.row = some r → r.1.locked = false) : (l.row.any fun r => r.1.locked) = false := by
  cases h : l.row with
  | none => rfl
  | some r => exact hr r h

/-- A write that the class of its session does not permit is reported and changes nothing else (R398, R412). -/
theorem writeLoc_denied {who : Writer} {l : Loc} {v : Nat} (now : Nat) {s : State} (hr : ∀ r, l.row = some r → r.1.locked = false)
    (hm : s.mayWrite who l v = false) : writeLoc who l v now s = (stDenied, noteDenied who.sid s) := by
  simp [writeLoc, any_locked_eq_false hr, hm]

/-- A reserved offset ignores a write that the class permits (R402). -/
theorem writeLoc_reserved {who : Writer} {l : Loc} {v : Nat} (now : Nat) {s : State} (hr : l.row = none)
    (hm : s.mayWrite who l v = true) : writeLoc who l v now s = (stOk, s) := by
  simp [writeLoc, hr, hm]

/-- A write of a register that takes writes, none of whose fields refuses its value, does what its page does. -/
theorem writeLoc_accepted {who : Writer} {l : Loc} {r : RegRow} {k v now : Nat} {s t : State} {m : Merge}
    (hr : l.row = some (r, k)) (hl : r.locked = false) (hi : r.inert = false) (hw : s.mayWrite who l v = true)
    (hf : s.frozen l r = false) (hm : mergeWord r (s.regWord l now) v (s.fieldShut l v) (s.fieldAllows l v) = m)
    (hb : m.bad = false) (hp : writePage ⟨who, l, m, r.store (s.reg l.addr) m.word, v, now⟩ s = accepted t) :
    writeLoc who l v now s = (stOk, t) := by
  unfold writeLoc
  simp [hr, hl, hi, hw, hf, hm, hb, hp, accepted]

/-! ## The accesses of a message (R331, R415, R418) -/

/-- What the rest of a register message reads of the state is as it was: the power state, a reset ordered, the counter, when
the buses are free, and the messages held. -/
structure MessageStands (s t : State) : Prop where
  power : t.pwr.state = s.pwr.state
  ordered : t.sec.resetAt = s.sec.resetAt
  now : t.tsc.now = s.tsc.now
  buses : t.busAt = s.busAt
  held : t.fwHeld = s.fwHeld

theorem MessageStands.refl (s : State) : MessageStands s s := ⟨rfl, rfl, rfl, rfl, rfl⟩

/-- What a condition may or may not do to the state stands if the doing of it does. -/
theorem MessageStands.ite {s t : State} (c : Prop) [Decidable c] (h : MessageStands s t) : MessageStands s (if c then t else s) := by
  split
  · exact h
  · exact .refl s

theorem MessageStands.noteDenied (sid : Nat) (s : State) : MessageStands s (noteDenied sid s) := by
  obtain ⟨l, h⟩ := note_frame 0x0705 1 s.tsc.now srcSecurity 0 0 sid s
  rw [Machine.noteDenied, h]
  exact ⟨rfl, rfl, rfl, rfl, rfl⟩

/-- A message of one access makes it, where the module is powered. -/
theorem accesses_one (who : Writer) (w : Bool) (stamp : Nat) (p : Option Loc) (v : Nat) (b : Bus) (s : State)
    (hp : s.pwr.state ≠ .off) :
    accesses who w stamp [(p, v)] b s
      = ([(access who w stamp p v b s).1], (access who w stamp p v b s).2.1, (access who w stamp p v b s).2.2) := by
  simp [accesses, hp]

/-- Reads answer one by one, in order, and change nothing but latched high halves (R69, R331). -/
theorem accesses_read (who : Writer) (stamp : Nat) (ps : List (Option Loc × Nat)) (b : Bus) (s : State) (hp : s.pwr.state ≠ .off) :
    ∃ rs c t, accesses who false stamp ps b s = (rs, c, t) ∧ rs.length = ps.length ∧ t = { s with latches := t.latches }
      ∧ ∀ (i : Nat) (p : Option Loc × Nat), ps[i]? = some p →
        (p.1 = none → rs[i]? = some (0, 3)) ∧ (p.1 ≠ none → ∃ v, rs[i]? = some (v, 0)) := by
  induction ps generalizing b s with
  | nil => exact ⟨[], b, s, rfl, rfl, rfl, by simp⟩
  | cons q ps ih =>
    obtain ⟨place, v⟩ := q
    have one : ∃ r c t, access who false stamp place v b s = (r, c, t) ∧ t = { s with latches := t.latches }
        ∧ (place = none → r = (0, 3)) ∧ (place ≠ none → ∃ v, r = (v, 0)) := by
      cases place with
      | none => exact ⟨_, _, _, rfl, rfl, fun _ => rfl, fun h => absurd rfl h⟩
      | some l =>
        refine ⟨_, _, _, rfl, ?_, fun h => by simp at h, fun _ => ⟨_, rfl⟩⟩
        show (readLoc l _ s).2 = _
        unfold readLoc
        split
        · rfl
        · dsimp only
          split <;> rfl
    obtain ⟨r, c, t, he, ht, hn, hs⟩ := one
    have hpt : t.pwr.state ≠ .off := by rw [ht]; exact hp
    obtain ⟨rs, c', t', he', hlen, ht', hres⟩ := ih c t hpt
    refine ⟨r :: rs, c', t', ?_, by simp [hlen], by rw [ht', ht], ?_⟩
    · simp [accesses, hp, he, he']
    · intro i p hip
      cases i with
      | zero =>
        obtain rfl : (place, v) = p := by simpa using hip
        simpa using And.intro hn hs
      | succ i => simpa using hres i p (by simpa using hip)

/-- Accesses that reach no register take a bus cycle each and change nothing (R331; log entry 44). -/
theorem accesses_noreg (who : Writer) (w : Bool) (stamp : Nat) (ps : List (Option Loc × Nat)) (hn : ∀ p ∈ ps, p.1 = none) (b : Bus)
    (s : State) (hp : s.pwr.state ≠ .off) :
    ∃ c, accesses who w stamp ps b s = (ps.map fun _ => (0, 3), c, s) ∧ c.at21 = b.at21 + 20 * ps.length := by
  induction ps generalizing b with
  | nil => exact ⟨b, rfl, rfl⟩
  | cons q ps ih =>
    obtain ⟨place, v⟩ := q
    obtain rfl : place = none := hn (place, v) (by simp)
    obtain ⟨c, he, hc⟩ := ih (fun p h => hn p (by simp [h])) (b.reach none).cycle
    refine ⟨c, ?_, ?_⟩
    · simp [accesses, hp, access, he, stNoReg]
    · rw [hc]
      simp [Bus.reach, Bus.cycle]
      omega

/-- The response leaves once the accesses are made, where the module is powered and none of them ordered a reset (R375, R418). -/
theorem performRegs_of_accesses {who : Writer} {rseq : Nat} {w : Bool} {accs : List RegAccess} {s t : State}
    {rs : List (Reg32 × Nat)} {b : Bus}
    (ha : accesses who w s.tsc.now (accs.map fun a => (s.locate a.addr.toNat, a.value.toNat)) (Bus.start s) s = (rs, b, t))
    (hn : t.tsc.now = s.tsc.now) (hp : t.pwr.state ≠ .off) (hz : t.sec.resetAt ≠ some 0) :
    performRegs who rseq w accs s = sendSession who.sid (.regResp rseq rs) { t with busAt := 21 * s.tsc.now + b.at21 } := by
  simp [performRegs, ha, hn, hp, regResponse, hz]

end Sys2Proof.Machine
end

section
/-! Register messages from the delivered state: what REG_READ and REG_WRITE do once the message is the next of its session
(R331, R345, R418). -/

namespace Sys2Proof.Machine

section
variable {h : Hdr} {x : Session} {s : State} (r : HostReady h x s)
include r

/-- The delivered state is powered, no message has ordered its reset, and none is held. -/
theorem HostReady.stands :
    (delivered h s).pwr.state ≠ .off ∧ (delivered h s).sec.resetAt ≠ some 0 ∧ (delivered h s).fwHeld = [] := by
  obtain ⟨-, hheld, hpwr, hsec⟩ := fields_delivered h s
  exact ⟨by rw [hpwr]; exact r.powered, by rw [hsec]; exact r.noReset, by rw [hheld]; exact r.firmware.2⟩

/-- While the firmware runs a register message is performed at once (R345). -/
theorem onRegs_delivered (y : Session) (port seq : Nat) (w : Bool) (accs : List RegAccess) :
    onRegs y port seq w accs (delivered h s) = performRegs (y.writer port) seq w accs (delivered h s) := by
  obtain ⟨hdown, -⟩ := fields_delivered h s
  simp [onRegs, hdown, r.firmware.1]

/-- REG_READ of a session of any class. -/
theorem exec_regRead {accs : List RegAccess} (h1 : 1 ≤ accs.length) (h64 : accs.length ≤ 64) (hv : ∀ a ∈ accs, a.value = 0) :
    exec (.regRead h accs) s = .next (performRegs (x.writer h.port) h.seq.toNat false accs (delivered h s)) := by
  have hne : accs ≠ [] := by rintro rfl; simp at h1
  show done (receiveHost h (.regRead accs) s) = _
  rw [receiveHost_ready r _ (by intro n; simpa [msgMalformed, hne, h64] using hv) (Or.inr rfl), done_eq_next]
  exact congrArg _ (onRegs_delivered r _ _ _ _ _)

/-- REG_WRITE of a session of any class. -/
theorem exec_regWrite {accs : List RegAccess} (h1 : 1 ≤ accs.length) (h64 : accs.length ≤ 64) :
    exec (.regWrite h accs) s = .next (performRegs (x.writer h.port) h.seq.toNat true accs (delivered h s)) := by
  have hne : accs ≠ [] := by rintro rfl; simp at h1
  show done (receiveHost h (.regWrite accs) s) = _
  rw [receiveHost_ready r _ (by intro n; simp [msgMalformed, hne, h64]) (Or.inr rfl), done_eq_next]
  exact congrArg _ (onRegs_delivered r _ _ _ _ _)

/-- REG_READ of one register that is no _LO register and has no latch: its word at the moment of the access (R69, R416). -/
theorem exec_regRead_one {a : RegAccess} {l : Loc} {row : RegRow} {k : Nat} (hv : a.value = 0)
    (hl : (delivered h s).locate a.addr.toNat = some l) (hr : l.row = some (row, k)) (hlow : row.lowHalf = false)
    (hlatch : (delivered h s).latched l.addr = none) :
    exec (.regRead h [a]) s = .next (sendSession x.sid
      (.regResp h.seq.toNat [(BitVec.ofNat 32 ((delivered h s).regWord l (accessNow l (delivered h s))), 0)])
      (accessed l.tree (delivered h s))) := by
  obtain ⟨hp, hz, -⟩ := r.stands
  have hread : ∀ now, readLoc l now (delivered h s) = ((delivered h s).regWord l now, delivered h s) := by
    intro now; simp [readLoc, hr, hlow, hlatch]
  rw [exec_regRead r (by simp) (by simp) (by simpa using hv)]
  congr 1
  apply performRegs_of_accesses _ rfl hp hz
  rw [List.map_singleton, hl, accesses_one _ _ _ _ _ _ _ hp]
  simp only [access, Bool.false_eq_true, if_false, hread]
  rfl

/-- REG_WRITE of one register: the write and its answer. -/
theorem exec_regWrite_one {a : RegAccess} {l : Loc} {st : Nat} {t : State} (hl : (delivered h s).locate a.addr.toNat = some l)
    (hw : writeLoc (x.writer h.port) l a.value.toNat (accessNow l (delivered h s)) (delivered h s) = (st, t))
    (ht : MessageStands (delivered h s) t) : exec (.regWrite h [a]) s = .next (answered h x st t l.tree) := by
  obtain ⟨hp, hz, hh⟩ := r.stands
  obtain ⟨hpower, hordered, hnow, hbuses, hheld⟩ := ht
  rw [exec_regWrite r (by simp) (by simp)]
  have hacc : accesses (x.writer h.port) true (delivered h s).tsc.now
      ([a].map fun a => ((delivered h s).locate a.addr.toNat, a.value.toNat)) (Bus.start (delivered h s)) (delivered h s)
      = ([(0, st)], ((Bus.start (delivered h s)).reach l.tree).cycle, t) := by
    rw [List.map_singleton, hl, accesses_one _ _ _ _ _ _ _ hp]
    have hw' : writeLoc (x.writer h.port) l a.value.toNat
      (((Bus.start (delivered h s)).reach l.tree).now (delivered h s).tsc.now) (delivered h s) = (st, t) := hw
    simp [access, hw', settleHeld_nil _ t (hheld.trans hh)]
  rw [performRegs_of_accesses hacc hnow (by rwa [hpower]) (by rwa [hordered])]
  simp [answered, accessed, Bus.start, hnow, hbuses, Session.writer]

/-- A write of a register of one RW field that takes the value, by a session that may write it, where the page but stores it:
the register holds the value in that field (R13). -/
theorem exec_regWrite_rw {addr : Nat} {l : Loc} {row : RegRow} {k : Nat} {f : Field} {v : Reg32} (ha : addr < 2 ^ 64)
    (hl : (delivered h s).locate addr = some l) (hr : l.row = some (row, k)) (hf : row.fields = [f]) (hacc : f.acc = .rw)
    (hm : (delivered h s).mayWrite (x.writer h.port) l v.toNat = true) (hz : (delivered h s).frozen l row = false)
    (hshut : (delivered h s).fieldShut l v.toNat f = false)
    (hok : f.ok.allows (bits v.toNat f.lo (f.hi + 1 - f.lo)) = true
      ∧ (delivered h s).fieldAllows l v.toNat f (bits v.toNat f.lo (f.hi + 1 - f.lo)) = true)
    (hpage : ∀ w : Write, w.loc = l → writePage w (delivered h s) = accepted (w.store (delivered h s))) :
    exec (.regWrite h [⟨BitVec.ofNat 64 addr, v⟩]) s = .next (answered h x 0
      (setReg l.addr (bits v.toNat f.lo (f.hi + 1 - f.lo) * 2 ^ f.lo) (delivered h s)) l.tree) := by
  have haddr : (BitVec.ofNat 64 addr).toNat = addr := by rw [BitVec.toNat_ofNat]; exact Nat.mod_eq_of_lt ha
  obtain ⟨hbad, hword⟩ := mergeWord_rw hf hacc ((delivered h s).regWord l (accessNow l (delivered h s))) v.toNat
    ((delivered h s).fieldShut l v.toNat) ((delivered h s).fieldAllows l v.toNat) hshut hok
  refine exec_regWrite_one r (by rw [haddr]; exact hl)
    (writeLoc_accepted hr (by simp [RegRow.locked, hf, hacc]) (by simp [RegRow.inert, hf, hacc]) hm hz rfl hbad ?_)
    ⟨rfl, rfl, rfl, rfl, rfl⟩
  rw [hpage _ rfl]
  simp only [Write.store, store_rw hf hacc, hword]

/-- A write of a register whose one field that is not read-only is a W1C bit, by a session that may write it: a one does what
`clear` does, a zero nothing (R13). -/
theorem exec_regWrite_w1c {addr : Nat} {l : Loc} {row : RegRow} {k i rs : Nat} {pre post : List Field} {v : Reg32}
    {clear : State → State} (ha : addr < 2 ^ 64) (hl : (delivered h s).locate addr = some l) (hr : l.row = some (row, k))
    (hf : row.fields = pre ++ ⟨i, i, .w1c, rs, .any⟩ :: post) (hpre : ∀ f ∈ pre, f.acc = .ro) (hpost : ∀ f ∈ post, f.acc = .ro)
    (hm : (delivered h s).mayWrite (x.writer h.port) l v.toNat = true) (hz : (delivered h s).frozen l row = false)
    (hpage : ∀ w : Write, w.loc = l → writePage w (delivered h s)
      = accepted (if bit w.m.act i then clear (delivered h s) else delivered h s))
    (hs : MessageStands (delivered h s) (clear (delivered h s))) :
    exec (.regWrite h [⟨BitVec.ofNat 64 addr, v⟩]) s
      = .next (answered h x 0 (if v.getLsbD i then clear (delivered h s) else delivered h s) l.tree) := by
  have hro : ∀ fs : List Field, (∀ f ∈ fs, f.acc = .ro) → fs.any (fun f => f.acc == .rwl) = false := by
    intro fs h; simpa using fun f hf => by simp [h f hf]
  have hlock : row.locked = false := by simp [RegRow.locked, hf, hro _ hpre, hro _ hpost]
  have hinert : row.inert = false := by simp [RegRow.inert, hf]
  have haddr : (BitVec.ofNat 64 addr).toNat = addr := by rw [BitVec.toNat_ofNat]; exact Nat.mod_eq_of_lt ha
  refine exec_regWrite_one r (by rw [haddr]; exact hl)
    (writeLoc_accepted hr hlock hinert hm hz (mergeWord_w1c hf hpre hpost _ _ _ _) rfl ?_) (.ite _ hs)
  rw [hpage _ rfl]
  simp only [bit_setBits_bits, bit_toNat]

end

end Sys2Proof.Machine
end

section
/-! The obligations of the scope: O3, and REG_READ and REG_WRITE of O50, register by register. -/

namespace Sys2Proof.Machine

section
variable {h : Hdr} {x : Session} {s : State} (r : HostReady h x s)
include r

/-! ## Reads -/

/-- A read message answers each access in order and leaves but latches and the time of the buses (R331). -/
theorem regRead_answers {accs : List RegAccess} (h1 : 1 ≤ accs.length) (h64 : accs.length ≤ 64) (hv : ∀ a ∈ accs, a.value = 0) :
    ∃ (t : State) (rs : List (Reg32 × Nat)),
      exec (.regRead h accs) s = .next (sendSession x.sid (.regResp h.seq.toNat rs) t) ∧ rs.length = accs.length
      ∧ t = { delivered h s with latches := t.latches, busAt := t.busAt }
      ∧ ∀ (i : Nat) (a : RegAccess), accs[i]? = some a →
        ((delivered h s).locate a.addr.toNat = none → rs[i]? = some (0, 3))
        ∧ ((delivered h s).locate a.addr.toNat ≠ none → ∃ v, rs[i]? = some (v, 0)) := by
  obtain ⟨hp, hz, -⟩ := r.stands
  obtain ⟨rs, b, t, ha, hlen, ht, hres⟩ := accesses_read (x.writer h.port) (delivered h s).tsc.now
    (accs.map fun a => ((delivered h s).locate a.addr.toNat, a.value.toNat)) (Bus.start (delivered h s)) (delivered h s) hp
  refine ⟨{ t with busAt := 21 * (delivered h s).tsc.now + b.at21 }, rs, ?_, by simpa using hlen, ?_, ?_⟩
  · rw [exec_regRead r h1 h64 hv, performRegs_of_accesses ha (by rw [ht]) (by rw [ht]; exact hp) (by rw [ht]; exact hz)]
    rfl
  · rw [ht]
  · intro i a hi
    exact hres i ((delivered h s).locate a.addr.toNat, a.value.toNat) (by simp [hi])

/-- STH_BUDGET reads the admission budget of the period in force (R42, R43). -/
theorem regRead_sthBudget (hlatch : (delivered h s).latched 0x10110 = none) :
    exec (.regRead h [⟨0x10110, 0⟩]) s = .next (sendSession x.sid (.regResp h.seq.toNat
      [(BitVec.ofNat 32 (budgetOf (delivered h s).sth.period), 0)]) (accessed none (delivered h s))) :=
  exec_regRead_one r (l := ⟨.sth, 0, 0x110, false⟩) rfl
    (locate_hubAddr _ (k := 1) (off := 0x110) (by decide) (by decide) (by decide)) rfl rfl hlatch

/-! ## Writes that change no register -/

/-- A write message that reaches no register. -/
theorem regWrite_noreg {accs : List RegAccess} (h1 : 1 ≤ accs.length) (h64 : accs.length ≤ 64)
    (hn : ∀ a ∈ accs, (delivered h s).locate a.addr.toNat = none) :
    exec (.regWrite h accs) s = .next (sendSession x.sid (.regResp h.seq.toNat (accs.map fun _ => (0, 3)))
      { delivered h s with
        busAt := 21 * (delivered h s).tsc.now + (Bus.start (delivered h s)).at21 + 20 * accs.length }) := by
  obtain ⟨hp, hz, -⟩ := r.stands
  obtain ⟨b, ha, hb⟩ := accesses_noreg (x.writer h.port) true (delivered h s).tsc.now
    (accs.map fun a => ((delivered h s).locate a.addr.toNat, a.value.toNat))
    (by simpa using hn) (Bus.start (delivered h s)) (delivered h s) hp
  rw [exec_regWrite r h1 h64, performRegs_of_accesses ha rfl hp hz, hb, List.map_map, List.length_map, ← Nat.add_assoc]
  rfl

/-- The order in which a write is judged (R402, R412; log entry 32). -/
theorem regWrite_judged {a : RegAccess} {l : Loc} (hl : (delivered h s).locate a.addr.toNat = some l) :
    ((∃ row, l.row = some row ∧ row.1.locked = true) →
      exec (.regWrite h [a]) s = .next (answered h x 0 (delivered h s) l.tree))
    ∧ ((∀ row, l.row = some row → row.1.locked = false) →
        (delivered h s).mayWrite (x.writer h.port) l a.value.toNat = false →
      exec (.regWrite h [a]) s = .next (answered h x 2 (noteDenied x.sid (delivered h s)) l.tree))
    ∧ ((delivered h s).mayWrite (x.writer h.port) l a.value.toNat = true → l.row = none →
      exec (.regWrite h [a]) s = .next (answered h x 0 (delivered h s) l.tree)) := by
  refine ⟨?_, ?_, ?_⟩
  · rintro ⟨row, hrow, hlock⟩
    exact exec_regWrite_one r hl (writeLoc_locked _ _ _ hrow hlock) (.refl _)
  · intro hlock hdenied
    exact exec_regWrite_one r hl (writeLoc_denied _ hlock hdenied) (.noteDenied _ _)
  · intro hmay hrow
    exact exec_regWrite_one r hl (writeLoc_reserved _ hrow hmay) (.refl _)

/-! ## Writes that a session in control makes -/

variable (hc : x.controls)
include hc

/-- EVT_FILTER holds the severity written (R68). -/
theorem regWrite_evtFilter {v : Reg32} (hv : v.toNat ≤ 3) :
    exec (.regWrite h [⟨0x3010C, v⟩]) s = .next (answered h x 0 (setReg 0x3010C v.toNat (delivered h s))) := by
  have hbits : bits v.toNat 0 8 = v.toNat := by simp [bits]; omega
  have hwrite := exec_regWrite_rw r (addr := hubAddr 3 0x10C) (l := ⟨.evt, 0, 0x10C, false⟩) (v := v) (by decide)
    (locate_hubAddr _ (by decide) (by decide) (by decide)) rfl (f := ⟨7, 0, .rw, 0, .within 0 3⟩) rfl rfl
    (mayWrite_of_controls hc _ _ _ _ (by decide) (by decide) (by decide) (by decide)) rfl rfl
    (by simp [Ok.allows, hbits, hv, State.fieldAllows]) (by rintro ⟨⟩ rfl; rfl)
  refine hwrite.trans ?_
  show Host.Outcome.next (answered h x 0 (setReg 0x3010C (bits v.toNat 0 8 * 2 ^ 0) (delivered h s))) = _
  rw [hbits, Nat.pow_zero, Nat.mul_one]

/-- STEPPED of TSC_STATUS (R69). -/
theorem regWrite_tscStatus (v : Reg32) :
    exec (.regWrite h [⟨0x20108, v⟩]) s = .next (answered h x 0
      { delivered h s with tsc := { (delivered h s).tsc with stepped := (delivered h s).tsc.stepped && !v.getLsbD 2 } }) := by
  have hwrite := exec_regWrite_w1c r (addr := hubAddr 2 0x108) (l := ⟨.tsc, 0, 0x108, false⟩) (v := v)
    (clear := onTsc fun c => { c with stepped := false }) (by decide)
    (locate_hubAddr _ (by decide) (by decide) (by decide)) rfl (pre := []) rfl (by decide) (by decide)
    (mayWrite_of_controls hc _ _ _ _ (by decide) (by decide) (by decide) (by decide)) rfl
    (by rintro ⟨⟩ rfl; rfl) ⟨rfl, rfl, rfl, rfl, rfl⟩
  refine hwrite.trans ?_
  cases v.getLsbD 2 <;> simp [onTsc] <;> rfl

/-- DIVERGE of TRN_STATUS (R275). -/
theorem regWrite_trnStatus (v : Reg32) (n : Fin 16) :
    exec (.regWrite h [⟨BitVec.ofNat 64 (trnAddr n 0x0C), v⟩]) s = .next (answered h x 0
      (if v.getLsbD 1 then onSlot n (fun y => { y with diverge := false }) (delivered h s) else delivered h s)) := by
  have hrow : Loc.row ⟨.trn, 0, 0x400 + 0x80 * n.val + 0x0C, false⟩ = some (⟨0x40C, 16, 0x80, false,
      [⟨2, 2, .ro, 0, .any⟩, ⟨1, 1, .w1c, 0, .any⟩, ⟨0, 0, .ro, 0, .any⟩]⟩, n.val) := by revert n; decide
  have hslot : (0x400 + 0x80 * n.val + 0x0C - 0x400) / 0x80 = n.val := by omega
  have hoff : (0x400 + 0x80 * n.val + 0x0C - 0x400) % 0x80 = 0x0C := by omega
  have hpage : ¬ 0x400 + 0x80 * n.val + 0x0C < 0x100 ∧ ¬ 0x400 + 0x80 * n.val + 0x0C < 0x400 := by omega
  refine exec_regWrite_w1c r (addr := trnAddr n 0x0C) (l := ⟨.trn, 0, 0x400 + 0x80 * n.val + 0x0C, false⟩)
    (clear := onSlot n fun y => { y with diverge := false }) (by unfold trnAddr hubAddr; omega)
    (locate_hubAddr _ (by decide) (by omega) (by omega)) hrow (pre := [_]) rfl (by decide) (by decide)
    (mayWrite_of_controls hc _ _ _ _ (by simp) (by simp) (by simp) (by simp)) ?_ ?_ ⟨rfl, rfl, rfl, rfl, rfl⟩
  · simp only [State.frozen, hoff]
    exact Bool.and_false _
  · rintro ⟨who, l, m, put, raw, now⟩ rfl
    simp only [writePage, writeTrn, hpage, if_false, hoff, Write.n, hslot]

/-- The bits of PWR_ALARM (R438). -/
theorem regWrite_pwrAlarm (v : Reg32) :
    exec (.regWrite h [⟨0xE013C, v⟩]) s = .next (answered h x 0 { delivered h s with
      pwr := { (delivered h s).pwr with alarm := (delivered h s).pwr.alarm - ((delivered h s).pwr.alarm &&& v.toNat % 8) } }) := by
  have hact : setBits (setBits (setBits 0 2 1 (bits v.toNat 2 1)) 1 1 (bits v.toNat 1 1)) 0 1 (bits v.toNat 0 1) = v.toNat % 8 := by
    simp only [setBits, bits]
    omega
  refine exec_regWrite_one r (l := ⟨.pwr, 0, 0x13C, false⟩)
    (locate_hubAddr _ (k := 14) (off := 0x13C) (by decide) (by decide) (by decide))
    (writeLoc_accepted rfl rfl rfl
      (mayWrite_of_controls hc _ _ _ _ (by decide) (by decide) (by decide) (by decide)) rfl rfl rfl ?_) ⟨rfl, rfl, rfl, rfl, rfl⟩
  rw [← hact]
  rfl

/-- A W1C bit of a page of a cluster: a one does to the cluster what `f` does (R145, R180, R207). -/
theorem regWrite_cluster_w1c {c : Fin 144} {j off i rs : Nat} {ty : PageTy} {row : RegRow} {pre post : List Field}
    {f : Cluster → Cluster} (v : Reg32) (hj : j < 8) (ho : off < 0x10000) (h4 : off % 4 = 0)
    (hty : clusterPages[j]? = some ty) (hr : Loc.row ⟨ty, 0, off, false⟩ = some (row, 0))
    (hf : row.fields = pre ++ ⟨i, i, .w1c, rs, .any⟩ :: post) (hpre : ∀ g ∈ pre, g.acc = .ro) (hpost : ∀ g ∈ post, g.acc = .ro)
    (hmxa : (ty, off) ≠ (.mxa, 0x128)) (hdrn : (ty, off) ≠ (.drn, 0x110))
    (hpage : ∀ w : Write, w.loc = ⟨ty, c, off, false⟩ → writePage w (delivered h s)
      = accepted (if bit w.m.act i then onCl c f (delivered h s) else delivered h s)) :
    exec (.regWrite h [⟨BitVec.ofNat 64 (clusterAddr c j off), v⟩]) s
      = .next (answered h x 0 (if v.getLsbD i then onCl c f (delivered h s) else delivered h s) (some (c.val / 36))) := by
  have hmem : ty ∈ clusterPages := List.mem_of_getElem? hty
  have hkind : ty ≠ .boot ∧ ty ≠ .sec ∧ (delivered h s).frozen ⟨ty, c, off, false⟩ row = false
      ∧ Loc.tree ⟨ty, c, off, false⟩ = some (c.val / 36) := by
    simp only [clusterPages, List.mem_cons, List.not_mem_nil, or_false] at hmem
    rcases hmem with rfl | rfl | rfl | rfl | rfl <;> exact ⟨by decide, by decide, rfl, rfl⟩
  obtain ⟨hboot, hsec, hfrozen, htree⟩ := hkind
  rw [← htree]
  exact exec_regWrite_w1c r (by unfold clusterAddr; omega)
    (by rw [locate_clusterAddr _ c.isLt hj ho h4, hty]; rfl) hr hf hpre hpost
    (mayWrite_of_controls hc _ _ _ _ hmxa hdrn hboot hsec) hfrozen hpage ⟨rfl, rfl, rfl, rfl, rfl⟩

/-- ERR of MXA_ISSUE_ERR, with the fields it clears (R145). -/
theorem regWrite_mxaIssueErr (v : Reg32) (c : Fin 144) :
    exec (.regWrite h [⟨BitVec.ofNat 64 (clusterAddr c 0 0x10C), v⟩]) s = .next (answered h x 0
      (if v.getLsbD 31 then onCl c (fun k => { k with mxaErr := k.mxaErr.clear }) (delivered h s) else delivered h s)
      (some (c.val / 36))) :=
  regWrite_cluster_w1c r hc v (by decide) (by decide) (by decide) rfl rfl (pre := []) rfl (by decide) (by decide) (by decide)
    (by decide) (by rintro ⟨⟩ rfl; simp [writePage, writeMxa])

/-- SEQ_ERR of DRN_STAT_RUN (R145). -/
theorem regWrite_drnStatRun (v : Reg32) (c : Fin 144) :
    exec (.regWrite h [⟨BitVec.ofNat 64 (clusterAddr c 1 0x10C), v⟩]) s = .next (answered h x 0
      (if v.getLsbD 1 then onCl c (fun k => { k with run := { k.run with seqErr := false } }) (delivered h s) else delivered h s)
      (some (c.val / 36))) :=
  regWrite_cluster_w1c r hc v (by decide) (by decide) (by decide) rfl rfl (pre := [_]) rfl (by decide) (by decide) (by decide)
    (by decide) (by rintro ⟨⟩ rfl; simp [writePage, writeDrn])

/-- ERR of LCH_ISSUE_ERR, with the fields it clears (R180). -/
theorem regWrite_lchIssueErr (v : Reg32) (c : Fin 144) :
    exec (.regWrite h [⟨BitVec.ofNat 64 (clusterAddr c 2 0x110), v⟩]) s = .next (answered h x 0
      (if v.getLsbD 31 then onCl c (fun k => { k with lchErr := k.lchErr.clear }) (delivered h s) else delivered h s)
      (some (c.val / 36))) :=
  regWrite_cluster_w1c r hc v (by decide) (by decide) (by decide) rfl rfl (pre := []) rfl (by decide) (by decide) (by decide)
    (by decide) (by rintro ⟨⟩ rfl; simp [writePage, writeLch])

/-- ERR of PMC_ERR, with the fields it clears (R207). -/
theorem regWrite_pmcErr (v : Reg32) (c : Fin 144) :
    exec (.regWrite h [⟨BitVec.ofNat 64 (clusterAddr c 3 0x110), v⟩]) s = .next (answered h x 0
      (if v.getLsbD 31 then onCl c (fun k => { k with pmcErr := k.pmcErr.clear }) (delivered h s) else delivered h s)
      (some (c.val / 36))) :=
  regWrite_cluster_w1c r hc v (by decide) (by decide) (by decide) rfl rfl (pre := []) rfl (by decide) (by decide) (by decide)
    (by decide) (by rintro ⟨⟩ rfl; simp [writePage, writePmc])

end

/-! ## The obligations -/

/-- Settles O3: the meaning that `exec` chooses for a command is `done` of a state, whichever the command is. -/
theorem everyCommandAnswersAState : Obligations.EveryCommandAnswersAState := by
  intro c s
  cases c <;> exact ⟨_, done_eq_next _⟩

/-- Settles O50, clause by clause, from the delivered state. -/
theorem registersReadAndWrite : Obligations.RegistersReadAndWrite := by
  rintro h x s d r rfl
  refine ⟨fun accs h1 h64 hv => regRead_answers r h1 h64 hv,
    fun a l row k hv hl hr hlow hlatch => exec_regRead_one r hv hl hr hlow hlatch, fun hlatch => ?_,
    fun accs h1 h64 hn => regWrite_noreg r h1 h64 hn, fun a l hl => regWrite_judged r hl,
    fun hc v hv => regWrite_evtFilter r hc hv,
    fun hc v n c => ⟨regWrite_tscStatus r hc v, regWrite_pwrAlarm r hc v, regWrite_trnStatus r hc v n, regWrite_mxaIssueErr r hc v c,
      regWrite_drnStatRun r hc v c, regWrite_lchIssueErr r hc v c, regWrite_pmcErr r hc v c⟩⟩
  have hbudget : (if (delivered h s).sth.period < 100000 then ((delivered h s).sth.period - 10000) * 21 / 20
      else ((delivered h s).sth.period - 50000) * 21 / 20) = budgetOf (delivered h s).sth.period := by
    by_cases hshort : (delivered h s).sth.period < 100000 <;> simp [budgetOf, shortPeriod, hshort]
  rw [hbudget]
  exact regRead_sthBudget r hlatch

end Sys2Proof.Machine
end

section
/-! One cluster of the state: what a command that acts on it leaves of the rest, and how an instruction issues and moves its
context on (R183 to R188, R207). -/

namespace Sys2Proof.Machine

/-! ## One cluster of the state -/

theorem shaped_clusters {s : State} (hs : s.shaped = true) :
    s.clusters.length = 144 ∧ ∀ c ∈ s.clusters, c.shaped = true := by
  simp only [State.shaped, Bool.and_eq_true, beq_iff_eq, List.all_eq_true] at hs
  grind

theorem cl_shaped {s : State} (hs : s.shaped = true) (x : Fin 144) : (s.cl x).shaped = true := by
  obtain ⟨hlen, hall⟩ := shaped_clusters hs
  have hx : x.val < s.clusters.length := by omega
  have hcl : s.cl x = s.clusters[x.val] := by simp [State.cl, List.getD_eq_getElem?_getD, hx]
  exact hcl ▸ hall _ (List.getElem_mem hx)

theorem ctxs_length {c : Cluster} (hc : c.shaped = true) : c.ctxs.length = 3 := by
  simp only [Cluster.shaped, Bool.and_eq_true, beq_iff_eq] at hc
  obtain ⟨⟨⟨⟨hctxs, _⟩, _⟩, _⟩, _⟩ := hc
  exact hctxs

@[simp] theorem cl_tick (t : Nat) (s : State) (y : Nat) : (tick t s).cl y = s.cl y := rfl

theorem cl_onCl (f : Cluster → Cluster) (s : State) (x y : Nat) :
    (onCl x f s).cl y = if x = y ∧ x < s.clusters.length then f (s.cl x) else s.cl y := getD_setAt _ _ _ _ _

theorem setAt_setAt {α : Type} (xs : List α) (n : Nat) (y z : α) : setAt (setAt xs n y) n z = setAt xs n z := by
  induction xs generalizing n with
  | nil => rfl
  | cons x xs ih => cases n <;> simp [setAt, ih]

/-- Two updates of one cluster are one. -/
theorem onCl_onCl {x : Nat} (f g : Cluster → Cluster) {s : State} (hx : x < s.clusters.length) :
    onCl x g (onCl x f s) = onCl x (fun c => g (f c)) s := by
  unfold onCl
  rw [show State.cl { s with clusters := _ } x = f (s.cl x) from (cl_onCl f s x x).trans (if_pos ⟨rfl, hx⟩), setAt_setAt]

/-- Only what an update makes of the cluster as it stands counts. -/
theorem onCl_congr {x : Nat} {f g : Cluster → Cluster} {s : State} (h : f (s.cl x) = g (s.cl x)) :
    onCl x f s = onCl x g s := by
  rw [onCl, h, onCl]

/-- The cluster that a stamped command acts on. -/
theorem cl_onCl_tick {s : State} (hs : s.shaped = true) (x : Fin 144) (t : Nat) (f : Cluster → Cluster) :
    (onCl x f (tick t s)).cl x = f (s.cl x) := by
  have hx : x.val < (tick t s).clusters.length := by simp [(shaped_clusters hs).1]
  rw [cl_onCl, if_pos ⟨rfl, hx⟩, cl_tick]

theorem ticked_onCl_tick (s : State) (x t : Nat) (f : Cluster → Cluster) : Ticked t s (onCl x f (tick t s)) := rfl

/-- A stamped command that acts on one cluster leaves everything outside it. -/
theorem onlyCluster_onCl_tick (s : State) (x t : Nat) (f : Cluster → Cluster) : OnlyCluster x s (onCl x f (tick t s)) :=
  ⟨rfl, fun y hy => by rw [cl_onCl, if_neg fun h => hy h.1.symm, cl_tick]⟩

/-! ## Issue (R185, R188) -/

/-- The opcode field of an instruction word (R188). -/
theorem bits_opWord {op w : Nat} (ho : op < 256) (hw : w < 2 ^ 56) : bits (opWord op w) 56 8 = op := by
  unfold bits opWord
  omega

/-- An instruction that stands at its word, has its turn and meets no hazard acts, at the stamp of its command. -/
theorem issue_acts {p : At} {op w id : Nat} {touch : Touch} {act : (id pc : Nat) → State → State} {s : State}
    (h : Issues p (opWord op w) id touch s) (hop : (instrOfWord p (opWord op w)).isSome = true) :
    issue p (opWord op w) false (fun _ => touch) act s = act id (8 * ((s.cl p.x).cx p.c).pc) (tick p.t s) := by
  obtain ⟨⟨_, hrun, hturn, v, hv, hw⟩, hfree⟩ := h
  simp [issue, hrun, hturn, hv, hw, hfree, Option.isSome_iff_ne_none.mp hop]

/-- The cluster once context k has issued an instruction that moves its counter `off` instructions on (R185, R207). -/
def Cluster.advanced (k : Nat) (off : Int) (c : Cluster) : Cluster :=
  { c with
    issued := c.issued + 1
    switches := c.switches + b2n (c.last.any fun l => l != k)
    last := some k
    holds := true
    ctxs := setAt c.ctxs k { c.cx k with pc := pcWrap ((c.cx k).pc + off), stall := .none } }

theorem advBy_eq {x : Nat} (k : Nat) (off : Int) {s : State} (hx : x < s.clusters.length) :
    advBy x k off s = onCl x (Cluster.advanced k off) s := onCl_onCl _ _ hx

theorem cx_advanced {c : Cluster} (hc : c.ctxs.length = 3) (k : Fin 3) (off : Int) (j : Nat) :
    (c.advanced k off).cx j
      = if j = k then { c.cx k with pc := pcWrap ((c.cx k).pc + off), stall := .none } else c.cx j := by
  have hk : k.val < c.ctxs.length := by omega
  simp only [Cluster.cx, Cluster.advanced, getD_setAt, hk, and_true, eq_comm (a := k.val)]

/-- What an update does to a cluster is confined to the queues of its units and its next issue number. -/
def QueuesOnly (g : Cluster → Cluster) : Prop :=
  ∀ c, g c = { c with opNext := (g c).opNext, arrQ := (g c).arrQ, chainQ := (g c).chainQ, gate := (g c).gate }

/-- An instruction that moves its context on and puts its operation into a queue does nothing else (R185, R207). -/
theorem onlyQueued_of_queuesOnly {s : State} (hs : s.shaped = true) (p : At) {g : Cluster → Cluster} (hg : QueuesOnly g) :
    let u := onCl p.x g (adv p.x p.c (tick p.t s))
    Ticked p.t s u ∧ OnlyQueued p.x p.c s u ∧ (u.cl p.x).cx p.c = s.movedCtx p 1
      ∧ u.cl p.x = g ((s.cl p.x).advanced p.c 1) := by
  have hx : p.x.val < (tick p.t s).clusters.length := by simp [(shaped_clusters hs).1]
  have hu : onCl p.x g (adv p.x p.c (tick p.t s)) = onCl p.x (fun c => g (c.advanced p.c 1)) (tick p.t s) := by
    rw [adv, advBy_eq _ _ hx, onCl_onCl _ _ hx]
  have hcl := cl_onCl_tick hs p.x p.t fun c => g (c.advanced p.c 1)
  have hcx : ∀ c j, (g c).cx j = c.cx j := fun c j => by rw [hg c]; rfl
  have hthree := ctxs_length (cl_shaped hs p.x)
  dsimp only
  rw [hu]
  refine ⟨ticked_onCl_tick _ _ _ _, ⟨onlyCluster_onCl_tick _ _ _ _, fun j hj => ?_, ?_⟩, ?_, hcl⟩
  · rw [hcl, hcx, cx_advanced hthree, if_neg hj]
  · rw [hcl, hg]
    rfl
  · rw [hcl, hcx, cx_advanced hthree, if_pos rfl]
    rfl

end Sys2Proof.Machine
end

section
/-! MXA, CMB and LCH put their operation into the queue of its unit: O14 (R117, R155, R189 to R192). -/

namespace Sys2Proof.Machine

/-- The update that joins an operation to the array's queue and counts its issue number. -/
def Cluster.joinArr (o : ArrOp) (c : Cluster) : Cluster := { c with arrQ := c.arrQ ++ [o], opNext := c.opNext + 1 }

/-- The update that joins a pass to the chain's queue and counts its issue number. -/
def Cluster.joinChain (o : ChainOp) (c : Cluster) : Cluster := { c with chainQ := c.chainQ ++ [o], opNext := c.opNext + 1 }

/-- An issued operation with the cluster's next issue number joins the end of the array's queue, and that is all. -/
theorem joinArr_leaves {s : State} (hs : s.shaped = true) (p : At) {o : ArrOp} (hn : o.n = (s.cl p.x).opNext) :
    let u := onCl p.x (Cluster.joinArr o) (adv p.x p.c (tick p.t s))
    Ticked p.t s u ∧ OnlyQueued p.x p.c s u ∧ (u.cl p.x).cx p.c = s.movedCtx p 1
      ∧ (u.cl p.x).arrQ = (s.cl p.x).arrQ ++ [o] ∧ (u.cl p.x).chainQ = (s.cl p.x).chainQ
      ∧ (u.cl p.x).gate = (s.cl p.x).gate ∧ (u.cl p.x).opNext = o.n + 1 := by
  obtain ⟨ht, hq, hcx, hcl⟩ := onlyQueued_of_queuesOnly hs p (g := Cluster.joinArr o) fun _ => rfl
  refine ⟨ht, hq, hcx, ?_⟩
  rw [hcl, hn]
  exact ⟨rfl, rfl, rfl, rfl⟩

/-- The same for a pass and the chain's queue. -/
theorem joinChain_leaves {s : State} (hs : s.shaped = true) (p : At) {o : ChainOp} (hn : o.n = (s.cl p.x).opNext) :
    let u := onCl p.x (Cluster.joinChain o) (adv p.x p.c (tick p.t s))
    Ticked p.t s u ∧ OnlyQueued p.x p.c s u ∧ (u.cl p.x).cx p.c = s.movedCtx p 1
      ∧ (u.cl p.x).chainQ = (s.cl p.x).chainQ ++ [o] ∧ (u.cl p.x).arrQ = (s.cl p.x).arrQ
      ∧ (u.cl p.x).gate = (s.cl p.x).gate ∧ (u.cl p.x).opNext = o.n + 1 := by
  obtain ⟨ht, hq, hcx, hcl⟩ := onlyQueued_of_queuesOnly hs p (g := Cluster.joinChain o) fun _ => rfl
  refine ⟨ht, hq, hcx, ?_⟩
  rw [hcl, hn]
  exact ⟨rfl, rfl, rfl, rfl⟩

theorem adv_clusters_length (x k : Nat) (s : State) : (adv x k s).clusters.length = s.clusters.length := by
  simp [adv, advBy, onCtx, countIssue, setAt_length]

/-- Joining a queue and then counting the issue number is one update of the cluster. -/
theorem nextOp_onCl {p : At} {s : State} (hs : s.shaped = true) (f : Cluster → Cluster) :
    nextOp p.x (onCl p.x f (adv p.x p.c (tick p.t s)))
      = onCl p.x (fun c => { f c with opNext := (f c).opNext + 1 }) (adv p.x p.c (tick p.t s)) :=
  onCl_onCl _ _ (by rw [adv_clusters_length, tick_clusters, (shaped_clusters hs).1]; omega)

theorem instrOfWord_mxa (p : At) (f : FormMxa) : (instrOfWord p (opWord 0x30 f.word)).isSome = true := by
  simp [instrOfWord, bits_opWord (op := 0x30) (by decide) (Laws.FormMxa.word_lt f)]

theorem instrOfWord_lch (p : At) (f : FormLch) : (instrOfWord p (opWord 0x31 f.word)).isSome = true := by
  simp [instrOfWord, bits_opWord (op := 0x31) (by decide) (Laws.FormLch.word_lt f)]

theorem instrOfWord_cmb (p : At) (f : FormCmb) : (instrOfWord p (opWord 0x32 f.word)).isSome = true := by
  simp [instrOfWord, bits_opWord (op := 0x32) (by decide) (Laws.FormCmb.word_lt f)]

/-- MXA with no error of R117, for the product its entry names, joins its operation to the array's queue (R190). -/
theorem exec_mxa_joins {p : At} {f : FormMxa} {s : State} {id : Nat} {o : ArrOp} {e : Prod} (hr : f.rsv = 0)
    (ho : o = arrayOpOf s p id false f.w f.a (s.sreg p.x p.c f.b).toNat f.spill f.mask)
    (he : (s.cmdProds id)[f.prod.val]? = some e) (hc : o.issueCode (s.cl p.x).heldAfter = 0)
    (ha : (ArrWord.ofWord o.word).agrees e = true)
    (hi : Issues p (opWord 0x30 f.word) id { sregs := [f.w, f.a, f.b, f.spill, f.mask] } s) :
    exec (.mxa p f) s = .next (onCl p.x (Cluster.joinArr o) (adv p.x p.c (tick p.t s))) := by
  subst ho
  have hbad : (f.rsv != 0) = false := by simp [hr]
  have he' : ((tick p.t s).cmdProds id)[f.prod.val]? = some e := he
  change execMxa p f s = _
  unfold execMxa
  dsimp only
  rw [hbad, issue_acts hi (instrOfWord_mxa p f)]
  simp only [he']
  have hagrees := fun h => Bool.false_ne_true (((Bool.not_eq_true' _).mp h).symm.trans ha)
  exact congrArg done (Eq.trans (if_neg fun h => bne_iff_ne.mp h hc) (Eq.trans (if_neg hagrees) (nextOp_onCl hi.1.shaped _)))

/-- CMB with no error of R117 joins its operation to the array's queue (R192). -/
theorem exec_cmb_joins {p : At} {f : FormCmb} {s : State} {id : Nat} {o : ArrOp} (hr : f.rsv = 0) (hb : f.b = 0)
    (ho : o = arrayOpOf s p id true f.w f.a 0 f.spill f.mask) (hc : o.issueCode (s.cl p.x).heldAfter = 0)
    (hi : Issues p (opWord 0x32 f.word) id { sregs := [f.w, f.a, f.spill, f.mask] } s) :
    exec (.cmb p f) s = .next (onCl p.x (Cluster.joinArr o) (adv p.x p.c (tick p.t s))) := by
  subst ho
  have hbad : (f.rsv != 0 || f.b.val != 0) = false := by simp [hr, hb]
  change execCmb p f s = _
  unfold execCmb
  dsimp only
  rw [hbad, issue_acts hi (instrOfWord_cmb p f)]
  exact congrArg done (Eq.trans (if_neg fun h => bne_iff_ne.mp h hc) (nextOp_onCl hi.1.shaped _))

/-- LCH with no error of R155 joins its pass to the chain's queue (R191). -/
theorem exec_lch_joins {p : At} {f : FormLch} {s : State} {id : Nat} {o : ChainOp} (hr : f.rsv = 0)
    (ho : o = chainOpOf s p id f) (hc : o.issueCode = 0)
    (hi : Issues p (opWord 0x31 f.word) id { sregs := [f.w, f.a, f.b, f.k0, f.k1, f.x] } s) :
    exec (.lch p f) s = .next (onCl p.x (Cluster.joinChain o) (adv p.x p.c (tick p.t s))) := by
  subst ho
  have hbad : (f.rsv != 0) = false := by simp [hr]
  change execLch p f s = _
  unfold execLch
  rw [hbad, issue_acts hi (instrOfWord_lch p f)]
  exact congrArg done (Eq.trans (if_neg fun h => bne_iff_ne.mp h hc) (nextOp_onCl hi.1.shaped _))

/-- Settles O14: each of the three is one update of the queues of its cluster. -/
theorem arrayAndChainIssue : Obligations.ArrayAndChainIssue := by
  refine ⟨?mxa, ?cmb, ?lch⟩
  case mxa =>
    intro p f s id o e hr ho he hc ha hi
    exact ⟨_, exec_mxa_joins hr ho he hc ha hi, joinArr_leaves hi.1.shaped p (congrArg ArrOp.n ho)⟩
  case cmb =>
    intro p f s id o hr hb ho hc hi
    exact ⟨_, exec_cmb_joins hr hb ho hc hi, joinArr_leaves hi.1.shaped p (congrArg ArrOp.n ho)⟩
  case lch =>
    intro p f s id o hr ho hc hi
    exact ⟨_, exec_lch_joins hr ho hc hi, joinChain_leaves hi.1.shaped p (congrArg ChainOp.n ho)⟩

end Sys2Proof.Machine
end

section
/-! The array and the drain: ARRAY_OP_STREAM puts the oldest operation into its slot, O23 (R119 to R122, R133, R192), and
TILE_EMIT takes a finished slot into the tile queue, O24 (R125, R126, R143, R158, R161). -/

namespace Sys2Proof.Machine

/-! ## Drain counters -/

theorem settleDrn_frame (c : Cluster) (rest es : List DrnOpen) :
    ∃ d l, c.settleDrn rest es = { c with drn := d, drnOpen := l } := by
  induction es generalizing c rest with
  | nil => exact ⟨c.drn, rest, rfl⟩
  | cons e es ih =>
    unfold Cluster.settleDrn
    split
    · obtain ⟨d, l, h⟩ := ih (c.addDrn e.set e.op e.cnt) rest
      refine ⟨d, l, h.trans ?_⟩
      unfold Cluster.addDrn
      split <;> rfl
    · exact ih c _

/-- Counting for a drain counter set changes the counter sets and the counts not yet whole, and nothing else (R137, R138). -/
theorem countDrn_frame (set op cmd : Nat) (n : DrnCnt) (left : DrnLeft) (c : Cluster) :
    ∃ d l, c.countDrn set op cmd n left = { c with drn := d, drnOpen := l } := settleDrn_frame _ _ _

/-- The same for all counts at once: the two fields as functions of what is counted. -/
theorem countDrn_frame_all (set op cmd : Nat) (c : Cluster) :
    ∃ (d : DrnCnt → DrnLeft → List DrnCnt) (l : DrnCnt → DrnLeft → List DrnOpen),
      ∀ n left, c.countDrn set op cmd n left = { c with drn := d n left, drnOpen := l n left } := by
  refine ⟨fun n left => (c.countDrn set op cmd n left).drn, fun n left => (c.countDrn set op cmd n left).drnOpen,
    fun n left => ?_⟩
  dsimp only
  obtain ⟨d, l, h⟩ := countDrn_frame set op cmd n left c
  rw [h]

/-! ## The bytes of a slot (R121) -/

theorem leBytes_length (n v : Nat) : (leBytes n v).length = n := by
  induction n generalizing v with
  | zero => rfl
  | succ n ih => simp [leBytes, ih]

theorem readBytes_length (m : List (Nat × Byte)) (a n : Nat) : (readBytes m a n).length = n := by
  induction n generalizing a with
  | zero => rfl
  | succ n ih => simp [readBytes, ih]

theorem accBytes_pos (mode : Nat) : 0 < accBytes mode := by
  unfold accBytes
  split
  · decide
  · split <;> decide

theorem Acc.bytes_length (mode : Nat) (a : Acc) : (a.bytes mode).length = accBytes mode := by
  unfold Acc.bytes accBytes
  split <;> simp_all [leBytes_length]

theorem flatMap_accBytes_length (mode : Nat) (accs : List Acc) :
    (accs.flatMap (Acc.bytes mode)).length = accs.length * accBytes mode := by
  induction accs with
  | nil => simp only [List.flatMap_nil, List.length_nil, Nat.zero_mul]
  | cons a accs ih =>
    rw [List.flatMap_cons, List.length_append, ih, Acc.bytes_length, List.length_cons, Nat.succ_mul, Nat.add_comm]

/-- A list of k whole chunks has k chunks. -/
theorem chunks_length {α : Type} {n : Nat} (hn : 0 < n) {k fuel : Nat} {xs : List α} (hx : xs.length = k * n)
    (hf : k ≤ fuel) : (chunks n fuel xs).length = k := by
  induction k generalizing fuel xs with
  | zero =>
    obtain rfl : xs = [] := List.length_eq_zero_iff.mp (by omega)
    cases fuel <;> rfl
  | succ k ih =>
    obtain ⟨fuel, rfl⟩ : ∃ m, fuel = m + 1 := ⟨fuel - 1, by omega⟩
    rw [Nat.succ_mul] at hx
    obtain ⟨x, xs, rfl⟩ := List.exists_cons_of_length_pos (show 0 < xs.length by omega)
    rw [chunks, List.length_cons, ih (by rw [List.length_drop]; omega) (by omega)]
    exact List.cons_ne_nil _ _

/-- The bytes of a slot hold one accumulator for each row and column (R121). -/
theorem accsOf_length {w : ArrWord} {bs : List Byte} (h : bs.length = w.slotBytes) :
    (accsOf w.mode bs).length = w.rows * 128 := by
  have hpos := accBytes_pos w.mode
  have hbs : bs.length = w.rows * 128 * accBytes w.mode := h
  rw [accsOf, List.length_map]
  exact chunks_length hpos hbs (hbs ▸ Nat.le_mul_of_pos_right _ hpos)

theorem slotStart_length (o : ArrOp) (c : Cluster) : (o.slotStart c).length = (ArrWord.ofWord o.word).rows * 128 := by
  refine accsOf_length ?_
  split
  · exact List.length_replicate
  · split <;> exact readBytes_length _ _ _

/-- A pass makes no accumulators beyond those it starts from. -/
theorem passRows_length_le (w : ArrWord) (cols rows : List Line) (accs : List Acc) :
    (passRows w cols rows accs).length ≤ accs.length := by
  induction rows generalizing accs with
  | nil => exact Nat.le_refl _
  | cons r rs ih =>
    have := ih (accs.drop 128)
    simp only [passRows, List.length_append, List.length_zipWith, List.length_take, List.length_drop] at this ⊢
    omega

/-- What a slot holds leaves every byte of the output store outside the slot. -/
theorem SlotHolds.outside {o : ArrOp} {accs : List Acc} {c d : Cluster} (h : SlotHolds o accs c d)
    (hn : accs.length ≤ (o.slotStart c).length) {a : Nat}
    (ha : a < (ArrWord.ofWord o.word).slotRange.1
      ∨ (ArrWord.ofWord o.word).slotRange.1 + (ArrWord.ofWord o.word).slotRange.2 ≤ a) :
    readAt 0 d.ostore a = readAt 0 c.ostore a := by
  rw [h.1]
  refine readAt_writeBytes_outside _ _ _ _ (ha.imp_right (Nat.le_trans (Nat.add_le_add_left ?_ _)))
  rw [flatMap_accBytes_length]
  exact Nat.mul_le_mul_right _ (slotStart_length o c ▸ hn)

/-! ## Streaming (R119, R122, R133, R192) -/

/-- Operation o has streamed from cluster c into d: its slot holds `accs`, with LAST it waits to be emitted, and the queues,
the contexts and the vector registers are as they were. -/
structure StreamedInto (o : ArrOp) (accs : List Acc) (c d : Cluster) : Prop where
  slot : SlotHolds o accs c d
  emits : d.emits = c.emits ++ if (ArrWord.ofWord o.word).last then [⟨o⟩] else []
  arrQ : d.arrQ = c.arrQ
  ctxs : d.ctxs = c.ctxs
  vregs : d.vregs = c.vregs
  chainQ : d.chainQ = c.chainQ
  tq : d.tq = c.tq

/-- The drain's action on a slot (R122): all that it does to the cluster. -/
theorem slotAct_frame (o : ArrOp) (f : List Acc → List Acc) (c : Cluster) :
    ∃ sl ln, c.slotAct o f = { c with
      ostore := writeBytes c.ostore (ArrWord.ofWord o.word).slotRange.1
        ((f (o.slotStart c)).flatMap (Acc.bytes (ArrWord.ofWord o.word).mode))
      ts := if (ArrWord.ofWord o.word).spill then writeBytes c.ts (tsAddr o.aux)
        ((f (o.slotStart c)).flatMap (Acc.bytes (ArrWord.ofWord o.word).mode)) else c.ts
      emits := if (ArrWord.ofWord o.word).last then c.emits ++ [⟨o⟩] else c.emits
      slots := sl, lastNamed := ln } := by
  unfold Cluster.slotAct ArrOp.slotStart
  generalize ArrWord.ofWord o.word = w
  dsimp only
  cases w.spill <;> cases w.last <;>
    simp only [Cluster.putTs, Cluster.nameSlot, Cluster.freeSlot, Bool.false_eq_true, if_false, if_true] <;>
    exact ⟨_, _, rfl⟩

/-- What the drain's action on a slot leaves, whatever the counter sets, the stationary tile and the activity counts then
become. -/
theorem StreamedInto.of_slotAct {o : ArrOp} {f : List Acc → List Acc} {c d : Cluster}
    (hd : d = { c.slotAct o f with
      drn := d.drn, drnOpen := d.drnOpen, stat := d.stat, cfg := d.cfg, busy := d.busy, bubble := d.bubble
      fences := d.fences, fenceCycles := d.fenceCycles }) : StreamedInto o (f (o.slotStart c)) c d := by
  obtain ⟨sl, ln, h⟩ := slotAct_frame o f c
  rw [h] at hd
  rw [hd]
  refine ⟨⟨rfl, rfl⟩, ?_, rfl, rfl, rfl, rfl, rfl⟩
  cases (ArrWord.ofWord o.word).last
  · exact (List.append_nil _).symm
  · rfl

/-- The slot's accumulators, each with that of the value at A added, in the order of the sum (R105, R192). -/
def ArrOp.addCombined (o : ArrOp) (c : Cluster) (accs : List Acc) : List Acc :=
  (accs.zip (o.combined c)).mapIdx fun n q => combine (ArrWord.ofWord o.word) n q.1 q.2

theorem addCombined_length_le (o : ArrOp) (c : Cluster) (accs : List Acc) : (o.addCombined c accs).length ≤ accs.length := by
  rw [ArrOp.addCombined, List.length_mapIdx, List.length_zip]
  exact Nat.min_le_left _ _

/-- A CMB acts on its slot with the value at A, and counts nothing but that it has streamed. -/
theorem streamCmb_frame (o : ArrOp) (c : Cluster) :
    ∃ d l, c.streamCmb o = { c.slotAct o (o.addCombined c) with drn := d, drnOpen := l } :=
  countDrn_frame _ _ _ _ _ _

/-- CMB leaves in its slot the slot's value with the one at A added (R192), and the stationary tile as it was. -/
theorem streamCmb_streamedInto (o : ArrOp) (c : Cluster) :
    StreamedInto o (o.addCombined c (o.slotStart c)) c (c.streamCmb o) ∧ (c.streamCmb o).stat = c.stat := by
  obtain ⟨d, l, h⟩ := streamCmb_frame o c
  obtain ⟨sl, ln, hslot⟩ := slotAct_frame o (o.addCombined c) c
  rw [h]
  exact ⟨StreamedInto.of_slotAct rfl, by rw [hslot]⟩

/-- A pass acts on its slot with the two tiles as the cells take them, counts its conversions, and holds the stationary
tile; the rest is its configuration and its activity counts (R113, R122, R133). -/
theorem streamMxa_frame (o : ArrOp) (st : Stationary) (cycles fence : Nat) (c : Cluster) :
    ∃ n cfg busy bubble fences fenceCycles, c.streamMxa o st cycles fence =
      { (c.slotAct o (passRows (ArrWord.ofWord o.word) (o.columns st) (o.streamed c))).countDrn
          (ArrWord.ofWord o.word).cset o.n o.cmd n (ArrWord.ofWord o.word).drnLeft with
        stat := some st, cfg := cfg, busy := busy, bubble := bubble, fences := fences, fenceCycles := fenceCycles } := by
  unfold Cluster.streamMxa ArrOp.columns ArrOp.streamed
  generalize ArrWord.ofWord o.word = w
  dsimp only
  exact ⟨_, _, _, _, _, _, rfl⟩

/-- A pass leaves in its slot the sums of the slot's value and the products of the two tiles, and holds the stationary tile
(R113, R122). -/
theorem streamMxa_streamedInto (o : ArrOp) (st : Stationary) (cycles fence : Nat) (c : Cluster) :
    StreamedInto o (passRows (ArrWord.ofWord o.word) (o.columns st) (o.streamed c) (o.slotStart c)) c
        (c.streamMxa o st cycles fence)
      ∧ (c.streamMxa o st cycles fence).stat = some st := by
  obtain ⟨n, cfg, busy, bubble, fences, fenceCycles, h⟩ := streamMxa_frame o st cycles fence c
  obtain ⟨d, l, hcount⟩ := countDrn_frame (ArrWord.ofWord o.word).cset o.n o.cmd n (ArrWord.ofWord o.word).drnLeft
    (c.slotAct o (passRows (ArrWord.ofWord o.word) (o.columns st) (o.streamed c)))
  rw [hcount] at h
  rw [h]
  exact ⟨StreamedInto.of_slotAct rfl, rfl⟩

theorem popArr_eq {c : Cluster} {o : ArrOp} {rest : List ArrOp} (hq : c.arrQ = o :: rest) :
    c.popArr = { c with arrQ := rest } := by
  rw [Cluster.popArr, hq]
  rfl

section
variable {x : Fin 144} {s : State} {o : ArrOp} {rest : List ArrOp} (t cycles fence : Nat) (hq : (s.cl x).arrQ = o :: rest)
  (hb : (s.cl x).arrBlocked o = false) (hl : (s.cl x).lockstep o = false)
include hq hb hl

/-- The oldest operation, where nothing blocks it and it is a CMB, streams as one. -/
theorem exec_arrayOpStream_cmb (hc : o.cmb = true) :
    exec (.arrayOpStream t x cycles fence) s = .next (onCl x (fun c => c.popArr.streamCmb o) (tick t s)) := by
  change execArrayOpStream t x cycles fence s = _
  simp [execArrayOpStream, done, hq, hb, hl, hc]

/-- A pass streams with the stationary tile it loads, or with KEEP the one held, if that has its configuration (R117). -/
theorem exec_arrayOpStream_mxa (hc : o.cmb = false)
    (hk : (ArrWord.ofWord o.word).keep = false
      ∨ ∃ st, (s.cl x).stat = some st ∧ (st.fmt, st.mode, st.ref) = (ArrWord.ofWord o.word).config) :
    ∃ st, (∀ st', (if (ArrWord.ofWord o.word).keep then (s.cl x).stat = some st' else st' = o.load (s.cl x)) → st' = st)
      ∧ exec (.arrayOpStream t x cycles fence) s
        = .next (onCl x (fun c => c.popArr.streamMxa o st cycles fence) (tick t s)) := by
  cases hkeep : (ArrWord.ofWord o.word).keep with
  | false =>
    refine ⟨o.load (s.cl x), fun st' h => by simpa using h, ?_⟩
    change execArrayOpStream t x cycles fence s = _
    simp only [execArrayOpStream, done_eq_next, hq, hb, hl, hc, hkeep, Bool.or_self, Bool.false_eq_true, if_false]
    exact congrArg _ (onCl_congr rfl)
  | true =>
    obtain ⟨st, hst, hcfg⟩ := hk.resolve_left (by simp [hkeep])
    refine ⟨st, fun st' h => by simpa [hst, eq_comm] using h, ?_⟩
    change execArrayOpStream t x cycles fence s = _
    simp [execArrayOpStream, done, hq, hb, hl, hc, hkeep, hst, hcfg]

end

/-- What an operation taken from the head of the queue leaves as it was once it has streamed. -/
theorem StreamedInto.stays {o : ArrOp} {accs : List Acc} {c d : Cluster} {rest : List ArrOp}
    (h : StreamedInto o accs { c with arrQ := rest } d) (hn : accs.length ≤ (o.slotStart c).length) :
    d.arrQ = rest ∧ d.ctxs = c.ctxs ∧ d.vregs = c.vregs ∧ d.chainQ = c.chainQ ∧ d.tq = c.tq
      ∧ (∀ a, (a < (ArrWord.ofWord o.word).slotRange.1
            ∨ (ArrWord.ofWord o.word).slotRange.1 + (ArrWord.ofWord o.word).slotRange.2 ≤ a) →
          readAt 0 d.ostore a = readAt 0 c.ostore a)
      ∧ d.emits = c.emits ++ (if (ArrWord.ofWord o.word).last then [⟨o⟩] else [])
      ∧ ((ArrWord.ofWord o.word).spill = false → d.ts = c.ts) := by
  have hslot : SlotHolds o accs c d := h.slot
  refine ⟨h.arrQ, h.ctxs, h.vregs, h.chainQ, h.tq, fun a ha => hslot.outside hn ha, h.emits, fun hs => ?_⟩
  rw [hslot.2, hs]
  rfl

/-- Settles O23: a CMB and a pass each act on the cluster with the operation taken from its queue, and make no more
accumulators than the slot began with. -/
theorem arrayOperationsStream : Obligations.ArrayOperationsStream := by
  intro t cycles fence x s o rest hs hq hb hl hk
  have hpop := popArr_eq hq
  cases hc : o.cmb with
  | true =>
    have hu := (cl_onCl_tick hs x t fun c => c.popArr.streamCmb o).trans (congrArg (Cluster.streamCmb o) hpop)
    obtain ⟨hinto, hstat⟩ := streamCmb_streamedInto o { s.cl x with arrQ := rest }
    obtain ⟨harrQ, hctxs, hvregs, hchainQ, htq, hout, hemits, hts⟩ := hinto.stays (addCombined_length_le _ _ _)
    refine ⟨_, exec_arrayOpStream_cmb t cycles fence hq hb hl hc, ticked_onCl_tick _ _ _ _, onlyCluster_onCl_tick _ _ _ _, ?_⟩
    rw [hu]
    exact ⟨harrQ, hctxs, hvregs, hchainQ, htq, hout, hemits, hts, fun _ => ⟨rfl, hstat, hinto.slot⟩, nofun⟩
  | false =>
    obtain ⟨st, hst, hexec⟩ := exec_arrayOpStream_mxa t cycles fence hq hb hl hc (hk.resolve_left (by simp [hc]))
    have hu := (cl_onCl_tick hs x t fun c => c.popArr.streamMxa o st cycles fence).trans
      (congrArg (Cluster.streamMxa o st cycles fence) hpop)
    obtain ⟨hinto, hstat⟩ := streamMxa_streamedInto o st cycles fence { s.cl x with arrQ := rest }
    obtain ⟨harrQ, hctxs, hvregs, hchainQ, htq, hout, hemits, hts⟩ := hinto.stays (passRows_length_le _ _ _ _)
    refine ⟨_, hexec, ticked_onCl_tick _ _ _ _, onlyCluster_onCl_tick _ _ _ _, ?_⟩
    rw [hu]
    refine ⟨harrQ, hctxs, hvregs, hchainQ, htq, hout, hemits, hts, nofun, fun st' _ h => ?_⟩
    obtain rfl := hst st' h
    exact ⟨rfl, hstat, hinto.slot⟩

/-! ## Emission (R125, R126, R143, R158, R161) -/

/-- The tile that the drain emits from the slot of operation o, with its statistics records: the slot as converted, or
under TAP as it stands (R125, R158, R161). -/
def Cluster.emittedTile (s : State) (o : ArrOp) (records : List Byte) (c : Cluster) : Tile :=
  let w := ArrWord.ofWord o.word
  { slot := w.slot, cmd := o.cmd, outfmt := w.outfmt, mode := w.mode, sat := w.sat, rows := w.rows
    bytes := if c.tap then c.slotBytesAt w else unitsBytes w.outfmt (convUnits s w.outfmt w.mode w.sat (c.slotBytesAt w))
    records := records, pos := 0, cset := w.cset, tap := c.tap, op := o.n }

/-- The drain emits a tile: all that it does to the cluster. Without STAT the tile has no records and the run stands. -/
theorem emitTile_frame (s : State) (o : ArrOp) (c : Cluster) :
    ∃ records run d l sl, emitTile s o c = { c with
        run := run, tq := c.tq ++ [c.emittedTile s o records], emits := c.emits.drop 1, drn := d, drnOpen := l, slots := sl }
      ∧ ((ArrWord.ofWord o.word).stat = false → records = [] ∧ run = c.run) := by
  obtain ⟨d, l, hcount⟩ := countDrn_frame_all (ArrWord.ofWord o.word).cset o.n o.cmd c
  unfold emitTile Cluster.emittedTile
  simp only [hcount]
  generalize ArrWord.ofWord o.word = w
  cases htap : c.tap <;> cases w.stat <;> simp only [Cluster.freeSlot, Bool.false_eq_true, if_false, if_true] <;>
    exact ⟨_, _, _, _, _, rfl, by simp⟩

/-- The oldest emission takes place where the queue or the record buffer has room for it (R126). -/
theorem exec_tileEmit (t : Nat) {x : Fin 144} {s : State} {e : Emit} {rest : List Emit} (he : (s.cl x).emits = e :: rest)
    (ha : (s.cl x).accepts (ArrWord.ofWord e.op.word) = true) :
    exec (.tileEmit t x) s = .next (onCl x (emitTile s e.op) (tick t s)) := by
  change execTileEmit t x s = _
  simp [execTileEmit, done, he, ha]

/-- Settles O24: the cluster after the emission is the one that `emitTile_frame` says. -/
theorem tilesAreEmitted : Obligations.TilesAreEmitted := by
  intro t x s e rest hs he ha
  obtain ⟨records, run, d, l, sl, hemit, hstat⟩ := emitTile_frame s e.op (s.cl x)
  have hu := (cl_onCl_tick hs x t (emitTile s e.op)).trans hemit
  refine ⟨_, (s.cl x).emittedTile s e.op records, exec_tileEmit t he ha, ticked_onCl_tick _ _ _ _,
    onlyCluster_onCl_tick _ _ _ _, ?_⟩
  rw [hu]
  refine ⟨rfl, ?_, rfl, rfl, rfl, rfl, rfl, rfl, hstat, fun htap => ?_, rfl, rfl, rfl, rfl⟩
  · simp [he]
  · simp [Cluster.emittedTile, htap]

end Sys2Proof.Machine
end

section
/-! The lacing chain: CHAIN_PASS takes the oldest pass through the stages, O25 (R146, R149, R159, R174, R179). -/

namespace Sys2Proof.Machine

/-! ## What a pass may change -/

/-- From cluster c to d nothing changed but what a pass may: the contexts, the tile queue, the slots, the counters of drain
and chain, the vector registers and the tile store (R149, R159, R175, R176). -/
def Cluster.OnlyPass (c d : Cluster) : Prop :=
  d = { c with ctxs := d.ctxs, tq := d.tq, slots := d.slots, drn := d.drn, drnOpen := d.drnOpen, lch := d.lch
               vregs := d.vregs, ts := d.ts }

theorem Cluster.OnlyPass.refl (c : Cluster) : c.OnlyPass c := rfl

theorem Cluster.OnlyPass.trans {c d e : Cluster} (hcd : c.OnlyPass d) (hde : d.OnlyPass e) : c.OnlyPass e := by
  refine Eq.trans hde ?_
  rw [hcd]

/-! ## Counts and Sd (R174, R176) -/

theorem addLch_frame (set op : Nat) (n : LchCnt) (c : Cluster) : ∃ l, c.addLch set op n = { c with lch := l } := by
  unfold Cluster.addLch
  split
  · exact ⟨c.lch, rfl⟩
  · exact ⟨_, rfl⟩

theorem putSd_frame (o : ChainOp) (v : Option Nat) (c : Cluster) : ∃ k, c.putSd o v = { c with ctxs := k } := by
  cases v with
  | none => exact ⟨c.ctxs, rfl⟩
  | some v => exact ⟨_, rfl⟩

/-- A pass's counts and the value of Reduce change the counter sets of the chain and the contexts, and nothing else. -/
theorem putSd_addLch_frame (o : ChainOp) (v : Option Nat) (set op : Nat) (n : LchCnt) (c : Cluster) :
    ∃ l k, (c.addLch set op n).putSd o v = { c with lch := l, ctxs := k } := by
  obtain ⟨l, hl⟩ := addLch_frame set op n c
  obtain ⟨k, hk⟩ := putSd_frame o v { c with lch := l }
  exact ⟨l, k, hl ▸ hk⟩

theorem runEmpty_frame (o : ChainOp) (c : Cluster) : ∃ l k, c.runEmpty o = { c with lch := l, ctxs := k } :=
  putSd_addLch_frame _ _ _ _ _ _

/-! ## The source and the destination (R149, R159, R175) -/

theorem putOpd_frame (d : ChainOpd) (bs : List Byte) (c : Cluster) :
    ∃ v m, c.putOpd d bs = { c with vregs := v, ts := m } := by
  cases d <;> exact ⟨_, _, rfl⟩

theorem putPacked_frame (o : ChainOp) (p : Packed) (c : Cluster) :
    ∃ v m, c.putPacked o p = { c with vregs := v, ts := m } := by
  obtain ⟨v, m, hd⟩ := putOpd_frame o.to_ p.data c
  unfold Cluster.putPacked
  rw [hd]
  cases o.to_ with
  | reg n => exact ⟨v, m, rfl⟩
  | mem d sc =>
    dsimp only
    split
    · exact ⟨v, m, rfl⟩
    · exact ⟨v, _, rfl⟩

theorem freeTapped_frame (q : Tile) (c : Cluster) :
    ∃ sl d l, c.freeTapped q = { c with slots := sl, drn := d, drnOpen := l } := by
  unfold Cluster.freeTapped
  split
  · obtain ⟨d, l, h⟩ := countDrn_frame q.cset q.op q.cmd {} .nothing (c.freeSlot q.slot q.rows q.mode)
    exact ⟨_, d, l, h⟩
  · exact ⟨c.slots, c.drn, c.drnOpen, rfl⟩

/-- Reading the head tile moves its position, or frees it with its slot and writes its records (R159). -/
theorem advanceTile_onlyPass (q : Tile) (e rec_ : Nat) (c : Cluster) : c.OnlyPass (c.advanceTile q e rec_) := by
  obtain ⟨sl, d, l, hfree⟩ := freeTapped_frame q { c with tq := c.tq.drop 1 }
  unfold Cluster.advanceTile
  split
  · rfl
  · dsimp only
    rw [hfree]
    split <;> rfl

theorem source_onlyPass (s : State) (o : ChainOp) (c : Cluster) : c.OnlyPass (c.source s o).2.2 := by
  unfold Cluster.source
  split
  · split
    · exact advanceTile_onlyPass _ _ _ _
    · exact .refl c
  · exact .refl c

/-- What a pass delivers, written to its destination and counted, with the value of Reduce in Sd. -/
theorem deliver_onlyPass (o : ChainOp) (p : Packed) (v : Option Nat) (c : Cluster) :
    c.OnlyPass (((c.putPacked o p).addLch o.ccw.cset o.n p.cnt).putSd o v) := by
  obtain ⟨vr, m, hput⟩ := putPacked_frame o p c
  obtain ⟨l, k, hcount⟩ := putSd_addLch_frame o v o.ccw.cset o.n p.cnt { c with vregs := vr, ts := m }
  rw [hput, hcount]
  rfl

/-- A pass with elements reads its source and delivers what it packs; codes scaled directly are delivered without the
stages (R157). -/
theorem runPass_onlyPass {s : State} {o : ChainOp} {c d : Cluster} (h : c.runPass s o = some d) : c.OnlyPass d := by
  unfold Cluster.runPass at h
  cases hdir : o.ccw.direct with
  | true =>
    simp only [hdir, if_true, Option.some.injEq] at h
    exact h ▸ deliver_onlyPass o _ none c
  | false =>
    simp only [hdir, Bool.false_eq_true, if_false, Option.map_eq_some_iff] at h
    obtain ⟨p, -, hd⟩ := h
    exact hd ▸ (source_onlyPass s o c).trans (deliver_onlyPass o p _ _)

/-! ## CHAIN_PASS -/

theorem popChain_eq {c : Cluster} {o : ChainOp} {rest : List ChainOp} (hq : c.chainQ = o :: rest) (tap : Bool) :
    c.popChain o tap = { c with chainQ := rest, ccw := o.word, chainBusy := c.chainBusy + o.cycles tap } := by
  rw [Cluster.popChain, hq]
  rfl

section
variable {x : Fin 144} {s : State} {o : ChainOp} {rest : List ChainOp} (t : Nat) (hq : (s.cl x).chainQ = o :: rest)
  (hb : (s.cl x).chainBlocked o = false)
include hq hb

/-- A pass of no elements leaves the queue with whatever Reduce makes of it, whether or not a tile is there (R149). -/
theorem exec_chainPass_empty (he : o.e = 0) :
    exec (.chainPass t x) s = .next (onCl x (fun c => (c.popChain o false).runEmpty o) (tick t s)) := by
  change execChainPass t x s = _
  simp [execChainPass, done_eq_next, hq, hb, he]

/-- A pass with elements whose tile is there, and whose records fit, makes of the cluster what `runPass` says. -/
theorem exec_chainPass_run {c' : Cluster} (he : 0 < o.e) (ht : o.ccw.src = 7 → (s.cl x).tq ≠ [])
    (hm : (s.cl x).recordsMisfit o = false)
    (hr : ((s.cl x).popChain o (o.ccw.src == 7 && (s.cl x).tq.any fun q => q.tap)).runPass (tick t s) o = some c') :
    exec (.chainPass t x) s = .next (onCl x (fun _ => c') (tick t s)) := by
  have hsrc : (o.ccw.src == 7 && (s.cl x).tq.isEmpty) = false := by simpa using ht
  change execChainPass t x s = _
  simp [execChainPass, done_eq_next, hq, hb, Nat.ne_of_gt he, hsrc, hm, hr]

end

/-- Settles O25: the cluster after the pass is the one with the pass taken from its queue, changed only in what a pass may
change, and without elements only in the chain's counts and the contexts. Whether a pass of no elements from the tile queue
waits for a tile is the model's choice (log 82): it does not. -/
theorem chainPassesRun : Obligations.ChainPassesRun := by
  intro t x s o rest hs hq hb
  refine ⟨fun he => ?_, fun c' he ht hm hr => ?_⟩
  · obtain ⟨l, k, hrun⟩ := runEmpty_frame o ((s.cl x).popChain o false)
    have hu := (cl_onCl_tick hs x t fun c => (c.popChain o false).runEmpty o).trans hrun
    refine ⟨_, exec_chainPass_empty t hq hb he, ticked_onCl_tick _ _ _ _, onlyCluster_onCl_tick _ _ _ _, ?_⟩
    rw [hu, popChain_eq hq]
    exact ⟨rfl, rfl, rfl, rfl, rfl⟩
  · have hu := cl_onCl_tick hs x t fun _ => c'
    have honly := runPass_onlyPass hr
    rw [popChain_eq hq] at honly
    refine ⟨_, exec_chainPass_run t hq hb he ht hm hr, ticked_onCl_tick _ _ _ _, onlyCluster_onCl_tick _ _ _ _, hu, ?_⟩
    rw [hu, honly]
    exact ⟨rfl, rfl, rfl, rfl, rfl⟩

end Sys2Proof.Machine
end
